-- ==== Sys2Proof/Word.lean ====
section
/-! DEFINITION. The two value types of the core (spec 00_scope.md R10, R13) and the width of its cycle counter. -/

namespace Sys2Proof

/-- A byte (u8): a register A, X, Y, SP, a memory byte, an opcode or operand byte. -/
abbrev Byte := BitVec 8

/-- A Word (u16): the program counter and every address. -/
abbrev Word := BitVec 16

/-- The value of the elapsed-cycle counter (u64), 10_state.md R41. -/
abbrev CycleCount := BitVec 64

end Sys2Proof
end

