-- ==== Sys2Proof/Syntax.lean ====
section
/-! DEFINITION. The instructions: one constructor of `Instr` per mnemonic of spec/opcode_table.json, its rows of one
mnemonic being the addressing modes of that instruction (the operand of the constructor), and one constructor for the
table's UNDEFINED rows. Mode names are the spec's (40_addressing.md). -/

namespace Sys2Proof

/-- The 13 addressing modes (30_encoding.md R70). -/
inductive AddrMode where
  | implied
  | accumulator
  | immediate
  | zeroPage
  | zeroPageX
  | zeroPageY
  | absolute
  | absoluteX
  | absoluteY
  | indirect
  | indirectX
  | indirectY
  | relative
  deriving DecidableEq, Repr

/-- A memory operand with its operand byte or address word: the modes with an effective address, but for Indirect,
which only JMP takes (40_addressing.md R103 to R107, R109, R110). -/
inductive MemMode where
  | zeroPage (b : Byte)
  | zeroPageX (b : Byte)
  | zeroPageY (b : Byte)
  | absolute (w : Word)
  | absoluteX (w : Word)
  | absoluteY (w : Word)
  | indirectX (b : Byte)
  | indirectY (b : Byte)
  deriving DecidableEq, Repr

/-- The operand of a read instruction (40_addressing.md R100). -/
inductive ReadOperand where
  | immediate (v : Byte)
  | memory (m : MemMode)
  deriving DecidableEq, Repr

/-- The memory operand of a read-modify-write instruction: exactly the four modes of 42_logical_shift_incdec_bit.md
R154, R160. -/
inductive RmwMode where
  | zeroPage (b : Byte)
  | zeroPageX (b : Byte)
  | absolute (w : Word)
  | absoluteX (w : Word)
  deriving DecidableEq, Repr

/-- The target of a shift or rotate (42_logical_shift_incdec_bit.md R154). -/
inductive ShiftOperand where
  | accumulator
  | memory (m : RmwMode)
  deriving DecidableEq, Repr

/-- The operand of JMP (45_control.md R240, R241). -/
inductive JumpOperand where
  | absolute (w : Word)
  | indirect (w : Word)
  deriving DecidableEq, Repr

/-- The instruction set: the 56 mnemonics of 00_scope.md R2 and the undefined opcodes of 30_encoding.md R80. A branch
carries its offset byte, JSR its target address, an undefined opcode its byte. -/
inductive Instr where
  -- loads and stores, 41_load_store.md
  | lda (o : ReadOperand)
  | ldx (o : ReadOperand)
  | ldy (o : ReadOperand)
  | sta (m : MemMode)
  | stx (m : MemMode)
  | sty (m : MemMode)
  -- logical, shift, increment and decrement, BIT, 42_logical_shift_incdec_bit.md
  | and (o : ReadOperand)
  | ora (o : ReadOperand)
  | eor (o : ReadOperand)
  | asl (o : ShiftOperand)
  | lsr (o : ShiftOperand)
  | rol (o : ShiftOperand)
  | ror (o : ShiftOperand)
  | inc (m : RmwMode)
  | dec (m : RmwMode)
  | inx
  | iny
  | dex
  | dey
  | bit (m : MemMode)
  -- arithmetic and compares, 43_arithmetic_compare.md
  | adc (o : ReadOperand)
  | sbc (o : ReadOperand)
  | cmp (o : ReadOperand)
  | cpx (o : ReadOperand)
  | cpy (o : ReadOperand)
  -- stack, 44_stack.md
  | pha
  | pla
  | php
  | plp
  -- control transfer, 45_control.md
  | bpl (b : Byte)
  | bmi (b : Byte)
  | bvc (b : Byte)
  | bvs (b : Byte)
  | bcc (b : Byte)
  | bcs (b : Byte)
  | bne (b : Byte)
  | beq (b : Byte)
  | jmp (o : JumpOperand)
  | jsr (target : Word)
  | rts
  | rti
  | brk
  -- flags, transfers, NOP and undefined opcodes, 46_flags_transfers_nop.md
  | clc
  | sec
  | cli
  | sei
  | cld
  | sed
  | clv
  | tax
  | txa
  | tay
  | tya
  | tsx
  | txs
  | nop
  | undefined (op : Byte)
  deriving DecidableEq, Repr

/-- The addressing mode of a memory operand. -/
def MemMode.mode : MemMode → AddrMode
  | .zeroPage _ => .zeroPage
  | .zeroPageX _ => .zeroPageX
  | .zeroPageY _ => .zeroPageY
  | .absolute _ => .absolute
  | .absoluteX _ => .absoluteX
  | .absoluteY _ => .absoluteY
  | .indirectX _ => .indirectX
  | .indirectY _ => .indirectY

/-- The addressing mode of a read operand. -/
def ReadOperand.mode : ReadOperand → AddrMode
  | .immediate _ => .immediate
  | .memory m => m.mode

/-- A read-modify-write operand as a memory operand. -/
def RmwMode.toMem : RmwMode → MemMode
  | .zeroPage b => .zeroPage b
  | .zeroPageX b => .zeroPageX b
  | .absolute w => .absolute w
  | .absoluteX w => .absoluteX w

/-- The addressing mode of a shift's target. -/
def ShiftOperand.mode : ShiftOperand → AddrMode
  | .accumulator => .accumulator
  | .memory m => m.toMem.mode

/-- The addressing mode of a jump operand. -/
def JumpOperand.mode : JumpOperand → AddrMode
  | .absolute _ => .absolute
  | .indirect _ => .indirect

/-- The addressing mode of an instruction (30_encoding.md R78, column mode). -/
def Instr.mode : Instr → AddrMode
  | .lda o | .ldx o | .ldy o | .and o | .ora o | .eor o | .adc o | .sbc o | .cmp o | .cpx o | .cpy o => o.mode
  | .sta m | .stx m | .sty m | .bit m => m.mode
  | .asl o | .lsr o | .rol o | .ror o => o.mode
  | .inc m | .dec m => m.toMem.mode
  | .bpl _ | .bmi _ | .bvc _ | .bvs _ | .bcc _ | .bcs _ | .bne _ | .beq _ => .relative
  | .jmp o => o.mode
  | .jsr _ => .absolute
  | .inx | .iny | .dex | .dey | .pha | .pla | .php | .plp | .rts | .rti | .brk => .implied
  | .clc | .sec | .cli | .sei | .cld | .sed | .clv => .implied
  | .tax | .txa | .tay | .tya | .tsx | .txs | .nop | .undefined _ => .implied

/-- The mnemonic of an instruction, as spec/opcode_table.json spells it (30_encoding.md R78, column mnemonic). -/
def Instr.mnemonic : Instr → String
  | .lda _ => "LDA"
  | .ldx _ => "LDX"
  | .ldy _ => "LDY"
  | .sta _ => "STA"
  | .stx _ => "STX"
  | .sty _ => "STY"
  | .and _ => "AND"
  | .ora _ => "ORA"
  | .eor _ => "EOR"
  | .asl _ => "ASL"
  | .lsr _ => "LSR"
  | .rol _ => "ROL"
  | .ror _ => "ROR"
  | .inc _ => "INC"
  | .dec _ => "DEC"
  | .inx => "INX"
  | .iny => "INY"
  | .dex => "DEX"
  | .dey => "DEY"
  | .bit _ => "BIT"
  | .adc _ => "ADC"
  | .sbc _ => "SBC"
  | .cmp _ => "CMP"
  | .cpx _ => "CPX"
  | .cpy _ => "CPY"
  | .pha => "PHA"
  | .pla => "PLA"
  | .php => "PHP"
  | .plp => "PLP"
  | .bpl _ => "BPL"
  | .bmi _ => "BMI"
  | .bvc _ => "BVC"
  | .bvs _ => "BVS"
  | .bcc _ => "BCC"
  | .bcs _ => "BCS"
  | .bne _ => "BNE"
  | .beq _ => "BEQ"
  | .jmp _ => "JMP"
  | .jsr _ => "JSR"
  | .rts => "RTS"
  | .rti => "RTI"
  | .brk => "BRK"
  | .clc => "CLC"
  | .sec => "SEC"
  | .cli => "CLI"
  | .sei => "SEI"
  | .cld => "CLD"
  | .sed => "SED"
  | .clv => "CLV"
  | .tax => "TAX"
  | .txa => "TXA"
  | .tay => "TAY"
  | .tya => "TYA"
  | .tsx => "TSX"
  | .txs => "TXS"
  | .nop => "NOP"
  | .undefined _ => "UNDEFINED"

end Sys2Proof
end

