-- ==== Sys2Proof/WellFormed.lean ====
section
/-! DEFINITION. Which terms of `Instr` an opcode encodes: the modes each mnemonic takes (spec 40_addressing.md R115) and
the 105 undefined opcode bytes (30_encoding.md R80). The decoder gives only well-formed instructions. -/

namespace Sys2Proof

/-- The modes of ADC, AND, CMP, EOR, LDA, ORA, SBC (R115). -/
def aluModes : List AddrMode :=
  [.immediate, .zeroPage, .zeroPageX, .absolute, .absoluteX, .absoluteY, .indirectX, .indirectY]

/-- The modes of LDX (R115). -/
def ldxModes : List AddrMode := [.immediate, .zeroPage, .zeroPageY, .absolute, .absoluteY]

/-- The modes of LDY (R115). -/
def ldyModes : List AddrMode := [.immediate, .zeroPage, .zeroPageX, .absolute, .absoluteX]

/-- The modes of CPX and CPY (R115). -/
def compareIndexModes : List AddrMode := [.immediate, .zeroPage, .absolute]

/-- The modes of STA: those of LDA without Immediate (R115). -/
def staModes : List AddrMode :=
  [.zeroPage, .zeroPageX, .absolute, .absoluteX, .absoluteY, .indirectX, .indirectY]

/-- The modes of STX (R115). -/
def stxModes : List AddrMode := [.zeroPage, .zeroPageY, .absolute]

/-- The modes of STY (R115). -/
def styModes : List AddrMode := [.zeroPage, .zeroPageX, .absolute]

/-- The modes of BIT (R115). -/
def bitModes : List AddrMode := [.zeroPage, .absolute]

/-- The 105 undefined opcode bytes, row by row as 30_encoding.md R80 lists them. -/
def undefinedOpcodes : List Byte :=
  [0x02, 0x03, 0x04, 0x07, 0x0B, 0x0C, 0x0F] ++
  [0x12, 0x13, 0x14, 0x17, 0x1A, 0x1B, 0x1C, 0x1F] ++
  [0x22, 0x23, 0x27, 0x2B, 0x2F] ++
  [0x32, 0x33, 0x34, 0x37, 0x3A, 0x3B, 0x3C, 0x3F] ++
  [0x42, 0x43, 0x44, 0x47, 0x4B, 0x4F] ++
  [0x52, 0x53, 0x54, 0x57, 0x5A, 0x5B, 0x5C, 0x5F] ++
  [0x62, 0x63, 0x64, 0x67, 0x6B, 0x6F] ++
  [0x72, 0x73, 0x74, 0x77, 0x7A, 0x7B, 0x7C, 0x7F] ++
  [0x80, 0x82, 0x83, 0x87, 0x89, 0x8B, 0x8F] ++
  [0x92, 0x93, 0x97, 0x9B, 0x9C, 0x9E, 0x9F] ++
  [0xA3, 0xA7, 0xAB, 0xAF] ++
  [0xB2, 0xB3, 0xB7, 0xBB, 0xBF] ++
  [0xC2, 0xC3, 0xC7, 0xCB, 0xCF] ++
  [0xD2, 0xD3, 0xD4, 0xD7, 0xDA, 0xDB, 0xDC, 0xDF] ++
  [0xE2, 0xE3, 0xE7, 0xEB, 0xEF] ++
  [0xF2, 0xF3, 0xF4, 0xF7, 0xFA, 0xFB, 0xFC, 0xFF]

/-- Whether some opcode encodes the term. The constructors with exact operand types (shifts, INC, DEC, JMP, JSR,
branches, implied instructions) have no ill-formed terms. DESIGN CHOICE (log entry 5), safe: an ill-formed term has a meaning
of its own in `exec`, which no bytes reach. -/
def Instr.wellFormed : Instr → Bool
  | .lda o | .and o | .ora o | .eor o | .adc o | .sbc o | .cmp o => aluModes.contains o.mode
  | .ldx o => ldxModes.contains o.mode
  | .ldy o => ldyModes.contains o.mode
  | .cpx o | .cpy o => compareIndexModes.contains o.mode
  | .sta m => staModes.contains m.mode
  | .stx m => stxModes.contains m.mode
  | .sty m => styModes.contains m.mode
  | .bit m => bitModes.contains m.mode
  | .undefined op => undefinedOpcodes.contains op
  | .asl _ | .lsr _ | .rol _ | .ror _ | .inc _ | .dec _ => true
  | .inx | .iny | .dex | .dey | .pha | .pla | .php | .plp => true
  | .bpl _ | .bmi _ | .bvc _ | .bvs _ | .bcc _ | .bcs _ | .bne _ | .beq _ => true
  | .jmp _ | .jsr _ | .rts | .rti | .brk => true
  | .clc | .sec | .cli | .sei | .cld | .sed | .clv => true
  | .tax | .txa | .tay | .tya | .tsx | .txs | .nop => true

end Sys2Proof
end

