-- ==== Sys2Proof/Decode.lean ====
section
/-! DEFINITION. Instruction bytes: the byte-order helpers (spec 00_scope.md R14), instruction lengths (30_encoding.md
R70), the decoder (R73, R78, R80) and the encoder, written from the Encoding lines of the instruction rules. -/

namespace Sys2Proof

/-- `word(hi, lo)`: the Word `hi * 256 + lo` (R14). -/
def word (hi lo : Byte) : Word := BitVec.ofNat 16 (hi.toNat * 256 + lo.toNat)

/-- `hi(w)`: bits 15 down to 8 (R14). -/
def hiByte (w : Word) : Byte := BitVec.ofNat 8 (w.toNat / 256)

/-- `lo(w)`: bits 7 down to 0 (R14). -/
def loByte (w : Word) : Byte := BitVec.ofNat 8 (w.toNat % 256)

/-- The number of operand bytes a mode consumes (30_encoding.md R70). -/
def AddrMode.operandBytes : AddrMode → Nat
  | .implied | .accumulator => 0
  | .immediate | .zeroPage | .zeroPageX | .zeroPageY | .relative | .indirectX | .indirectY => 1
  | .absolute | .absoluteX | .absoluteY | .indirect => 2

/-- "Instruction length = 1 + operand bytes" (30_encoding.md R70). -/
def Instr.length (i : Instr) : Nat := 1 + i.mode.operandBytes

/-! ### The opcode map, row by row: the 16 x 16 grid of 30_encoding.md R79, row = high nibble, column = low nibble of the
opcode. `b1` and `b2` are the bytes after it; a word operand has its low byte first (R72). -/

/-- Opcodes 0x00 to 0x0F. -/
def decodeRow0 (column : Nat) (b1 b2 : Byte) : Option Instr :=
  match column with
  | 0x0 => some .brk
  | 0x1 => some (.ora (.memory (.indirectX b1)))
  | 0x5 => some (.ora (.memory (.zeroPage b1)))
  | 0x6 => some (.asl (.memory (.zeroPage b1)))
  | 0x8 => some .php
  | 0x9 => some (.ora (.immediate b1))
  | 0xA => some (.asl .accumulator)
  | 0xD => some (.ora (.memory (.absolute (word b2 b1))))
  | 0xE => some (.asl (.memory (.absolute (word b2 b1))))
  | _ => none

/-- Opcodes 0x10 to 0x1F. -/
def decodeRow1 (column : Nat) (b1 b2 : Byte) : Option Instr :=
  match column with
  | 0x0 => some (.bpl b1)
  | 0x1 => some (.ora (.memory (.indirectY b1)))
  | 0x5 => some (.ora (.memory (.zeroPageX b1)))
  | 0x6 => some (.asl (.memory (.zeroPageX b1)))
  | 0x8 => some .clc
  | 0x9 => some (.ora (.memory (.absoluteY (word b2 b1))))
  | 0xD => some (.ora (.memory (.absoluteX (word b2 b1))))
  | 0xE => some (.asl (.memory (.absoluteX (word b2 b1))))
  | _ => none

/-- Opcodes 0x20 to 0x2F. -/
def decodeRow2 (column : Nat) (b1 b2 : Byte) : Option Instr :=
  match column with
  | 0x0 => some (.jsr (word b2 b1))
  | 0x1 => some (.and (.memory (.indirectX b1)))
  | 0x4 => some (.bit (.zeroPage b1))
  | 0x5 => some (.and (.memory (.zeroPage b1)))
  | 0x6 => some (.rol (.memory (.zeroPage b1)))
  | 0x8 => some .plp
  | 0x9 => some (.and (.immediate b1))
  | 0xA => some (.rol .accumulator)
  | 0xC => some (.bit (.absolute (word b2 b1)))
  | 0xD => some (.and (.memory (.absolute (word b2 b1))))
  | 0xE => some (.rol (.memory (.absolute (word b2 b1))))
  | _ => none

/-- Opcodes 0x30 to 0x3F. -/
def decodeRow3 (column : Nat) (b1 b2 : Byte) : Option Instr :=
  match column with
  | 0x0 => some (.bmi b1)
  | 0x1 => some (.and (.memory (.indirectY b1)))
  | 0x5 => some (.and (.memory (.zeroPageX b1)))
  | 0x6 => some (.rol (.memory (.zeroPageX b1)))
  | 0x8 => some .sec
  | 0x9 => some (.and (.memory (.absoluteY (word b2 b1))))
  | 0xD => some (.and (.memory (.absoluteX (word b2 b1))))
  | 0xE => some (.rol (.memory (.absoluteX (word b2 b1))))
  | _ => none

/-- Opcodes 0x40 to 0x4F. -/
def decodeRow4 (column : Nat) (b1 b2 : Byte) : Option Instr :=
  match column with
  | 0x0 => some .rti
  | 0x1 => some (.eor (.memory (.indirectX b1)))
  | 0x5 => some (.eor (.memory (.zeroPage b1)))
  | 0x6 => some (.lsr (.memory (.zeroPage b1)))
  | 0x8 => some .pha
  | 0x9 => some (.eor (.immediate b1))
  | 0xA => some (.lsr .accumulator)
  | 0xC => some (.jmp (.absolute (word b2 b1)))
  | 0xD => some (.eor (.memory (.absolute (word b2 b1))))
  | 0xE => some (.lsr (.memory (.absolute (word b2 b1))))
  | _ => none

/-- Opcodes 0x50 to 0x5F. -/
def decodeRow5 (column : Nat) (b1 b2 : Byte) : Option Instr :=
  match column with
  | 0x0 => some (.bvc b1)
  | 0x1 => some (.eor (.memory (.indirectY b1)))
  | 0x5 => some (.eor (.memory (.zeroPageX b1)))
  | 0x6 => some (.lsr (.memory (.zeroPageX b1)))
  | 0x8 => some .cli
  | 0x9 => some (.eor (.memory (.absoluteY (word b2 b1))))
  | 0xD => some (.eor (.memory (.absoluteX (word b2 b1))))
  | 0xE => some (.lsr (.memory (.absoluteX (word b2 b1))))
  | _ => none

/-- Opcodes 0x60 to 0x6F. -/
def decodeRow6 (column : Nat) (b1 b2 : Byte) : Option Instr :=
  match column with
  | 0x0 => some .rts
  | 0x1 => some (.adc (.memory (.indirectX b1)))
  | 0x5 => some (.adc (.memory (.zeroPage b1)))
  | 0x6 => some (.ror (.memory (.zeroPage b1)))
  | 0x8 => some .pla
  | 0x9 => some (.adc (.immediate b1))
  | 0xA => some (.ror .accumulator)
  | 0xC => some (.jmp (.indirect (word b2 b1)))
  | 0xD => some (.adc (.memory (.absolute (word b2 b1))))
  | 0xE => some (.ror (.memory (.absolute (word b2 b1))))
  | _ => none

/-- Opcodes 0x70 to 0x7F. -/
def decodeRow7 (column : Nat) (b1 b2 : Byte) : Option Instr :=
  match column with
  | 0x0 => some (.bvs b1)
  | 0x1 => some (.adc (.memory (.indirectY b1)))
  | 0x5 => some (.adc (.memory (.zeroPageX b1)))
  | 0x6 => some (.ror (.memory (.zeroPageX b1)))
  | 0x8 => some .sei
  | 0x9 => some (.adc (.memory (.absoluteY (word b2 b1))))
  | 0xD => some (.adc (.memory (.absoluteX (word b2 b1))))
  | 0xE => some (.ror (.memory (.absoluteX (word b2 b1))))
  | _ => none

/-- Opcodes 0x80 to 0x8F. -/
def decodeRow8 (column : Nat) (b1 b2 : Byte) : Option Instr :=
  match column with
  | 0x1 => some (.sta (.indirectX b1))
  | 0x4 => some (.sty (.zeroPage b1))
  | 0x5 => some (.sta (.zeroPage b1))
  | 0x6 => some (.stx (.zeroPage b1))
  | 0x8 => some .dey
  | 0xA => some .txa
  | 0xC => some (.sty (.absolute (word b2 b1)))
  | 0xD => some (.sta (.absolute (word b2 b1)))
  | 0xE => some (.stx (.absolute (word b2 b1)))
  | _ => none

/-- Opcodes 0x90 to 0x9F. -/
def decodeRow9 (column : Nat) (b1 b2 : Byte) : Option Instr :=
  match column with
  | 0x0 => some (.bcc b1)
  | 0x1 => some (.sta (.indirectY b1))
  | 0x4 => some (.sty (.zeroPageX b1))
  | 0x5 => some (.sta (.zeroPageX b1))
  | 0x6 => some (.stx (.zeroPageY b1))
  | 0x8 => some .tya
  | 0x9 => some (.sta (.absoluteY (word b2 b1)))
  | 0xA => some .txs
  | 0xD => some (.sta (.absoluteX (word b2 b1)))
  | _ => none

/-- Opcodes 0xA0 to 0xAF. -/
def decodeRowA (column : Nat) (b1 b2 : Byte) : Option Instr :=
  match column with
  | 0x0 => some (.ldy (.immediate b1))
  | 0x1 => some (.lda (.memory (.indirectX b1)))
  | 0x2 => some (.ldx (.immediate b1))
  | 0x4 => some (.ldy (.memory (.zeroPage b1)))
  | 0x5 => some (.lda (.memory (.zeroPage b1)))
  | 0x6 => some (.ldx (.memory (.zeroPage b1)))
  | 0x8 => some .tay
  | 0x9 => some (.lda (.immediate b1))
  | 0xA => some .tax
  | 0xC => some (.ldy (.memory (.absolute (word b2 b1))))
  | 0xD => some (.lda (.memory (.absolute (word b2 b1))))
  | 0xE => some (.ldx (.memory (.absolute (word b2 b1))))
  | _ => none

/-- Opcodes 0xB0 to 0xBF. -/
def decodeRowB (column : Nat) (b1 b2 : Byte) : Option Instr :=
  match column with
  | 0x0 => some (.bcs b1)
  | 0x1 => some (.lda (.memory (.indirectY b1)))
  | 0x4 => some (.ldy (.memory (.zeroPageX b1)))
  | 0x5 => some (.lda (.memory (.zeroPageX b1)))
  | 0x6 => some (.ldx (.memory (.zeroPageY b1)))
  | 0x8 => some .clv
  | 0x9 => some (.lda (.memory (.absoluteY (word b2 b1))))
  | 0xA => some .tsx
  | 0xC => some (.ldy (.memory (.absoluteX (word b2 b1))))
  | 0xD => some (.lda (.memory (.absoluteX (word b2 b1))))
  | 0xE => some (.ldx (.memory (.absoluteY (word b2 b1))))
  | _ => none

/-- Opcodes 0xC0 to 0xCF. -/
def decodeRowC (column : Nat) (b1 b2 : Byte) : Option Instr :=
  match column with
  | 0x0 => some (.cpy (.immediate b1))
  | 0x1 => some (.cmp (.memory (.indirectX b1)))
  | 0x4 => some (.cpy (.memory (.zeroPage b1)))
  | 0x5 => some (.cmp (.memory (.zeroPage b1)))
  | 0x6 => some (.dec (.zeroPage b1))
  | 0x8 => some .iny
  | 0x9 => some (.cmp (.immediate b1))
  | 0xA => some .dex
  | 0xC => some (.cpy (.memory (.absolute (word b2 b1))))
  | 0xD => some (.cmp (.memory (.absolute (word b2 b1))))
  | 0xE => some (.dec (.absolute (word b2 b1)))
  | _ => none

/-- Opcodes 0xD0 to 0xDF. -/
def decodeRowD (column : Nat) (b1 b2 : Byte) : Option Instr :=
  match column with
  | 0x0 => some (.bne b1)
  | 0x1 => some (.cmp (.memory (.indirectY b1)))
  | 0x5 => some (.cmp (.memory (.zeroPageX b1)))
  | 0x6 => some (.dec (.zeroPageX b1))
  | 0x8 => some .cld
  | 0x9 => some (.cmp (.memory (.absoluteY (word b2 b1))))
  | 0xD => some (.cmp (.memory (.absoluteX (word b2 b1))))
  | 0xE => some (.dec (.absoluteX (word b2 b1)))
  | _ => none

/-- Opcodes 0xE0 to 0xEF. -/
def decodeRowE (column : Nat) (b1 b2 : Byte) : Option Instr :=
  match column with
  | 0x0 => some (.cpx (.immediate b1))
  | 0x1 => some (.sbc (.memory (.indirectX b1)))
  | 0x4 => some (.cpx (.memory (.zeroPage b1)))
  | 0x5 => some (.sbc (.memory (.zeroPage b1)))
  | 0x6 => some (.inc (.zeroPage b1))
  | 0x8 => some .inx
  | 0x9 => some (.sbc (.immediate b1))
  | 0xA => some .nop
  | 0xC => some (.cpx (.memory (.absolute (word b2 b1))))
  | 0xD => some (.sbc (.memory (.absolute (word b2 b1))))
  | 0xE => some (.inc (.absolute (word b2 b1)))
  | _ => none

/-- Opcodes 0xF0 to 0xFF. -/
def decodeRowF (column : Nat) (b1 b2 : Byte) : Option Instr :=
  match column with
  | 0x0 => some (.beq b1)
  | 0x1 => some (.sbc (.memory (.indirectY b1)))
  | 0x5 => some (.sbc (.memory (.zeroPageX b1)))
  | 0x6 => some (.inc (.zeroPageX b1))
  | 0x8 => some .sed
  | 0x9 => some (.sbc (.memory (.absoluteY (word b2 b1))))
  | 0xD => some (.sbc (.memory (.absoluteX (word b2 b1))))
  | 0xE => some (.inc (.absoluteX (word b2 b1)))
  | _ => none

/-- The defined instruction at opcode `op`, if it is one of the 151 (R78, R79). -/
def decodeDefined (op b1 b2 : Byte) : Option Instr :=
  match op.toNat / 16 with
  | 0x0 => decodeRow0 (op.toNat % 16) b1 b2
  | 0x1 => decodeRow1 (op.toNat % 16) b1 b2
  | 0x2 => decodeRow2 (op.toNat % 16) b1 b2
  | 0x3 => decodeRow3 (op.toNat % 16) b1 b2
  | 0x4 => decodeRow4 (op.toNat % 16) b1 b2
  | 0x5 => decodeRow5 (op.toNat % 16) b1 b2
  | 0x6 => decodeRow6 (op.toNat % 16) b1 b2
  | 0x7 => decodeRow7 (op.toNat % 16) b1 b2
  | 0x8 => decodeRow8 (op.toNat % 16) b1 b2
  | 0x9 => decodeRow9 (op.toNat % 16) b1 b2
  | 0xA => decodeRowA (op.toNat % 16) b1 b2
  | 0xB => decodeRowB (op.toNat % 16) b1 b2
  | 0xC => decodeRowC (op.toNat % 16) b1 b2
  | 0xD => decodeRowD (op.toNat % 16) b1 b2
  | 0xE => decodeRowE (op.toNat % 16) b1 b2
  | 0xF => decodeRowF (op.toNat % 16) b1 b2
  | _ => none

/-- The instruction at an opcode byte `op` followed by the bytes `b1` and `b2`, of which it uses as many as its mode
consumes: a defined one, or the undefined opcode `op` (R73, R80). -/
def decode (op b1 b2 : Byte) : Instr :=
  match decodeDefined op b1 b2 with
  | some i => i
  | none => .undefined op

/-- Why a finite byte sequence is no instruction. Instruction fetch reads memory, which has no end (R70: addresses run
modulo 65536), so the machine itself never meets either. -/
inductive DecodeError where
  /-- There is no opcode byte. -/
  | empty
  /-- The bytes end before the operand bytes of this opcode do. -/
  | truncated (op : Byte)
  deriving DecidableEq, Repr

/-- The length of an instruction, from its opcode byte alone (30_encoding.md R74). -/
def opcodeLength (op : Byte) : Nat := (decode op 0 0).length

/-- The first instruction of a byte sequence, and the bytes after it. Every opcode byte decodes (30_encoding.md R73), so
only a missing byte is rejected. -/
def decodeBytes : List Byte → Except DecodeError (Instr × List Byte)
  | [] => .error .empty
  | op :: rest =>
    match opcodeLength op, rest with
    | 1, rest => .ok (decode op 0 0, rest)
    | 2, b1 :: rest => .ok (decode op b1 0, rest)
    | 3, b1 :: b2 :: rest => .ok (decode op b1 b2, rest)
    | _, _ => .error (.truncated op)

/-- The operand bytes of a memory mode, in memory order (30_encoding.md R71). -/
def MemMode.bytes : MemMode → List Byte
  | .zeroPage b | .zeroPageX b | .zeroPageY b | .indirectX b | .indirectY b => [b]
  | .absolute w | .absoluteX w | .absoluteY w => [loByte w, hiByte w]

/-- The operand bytes of a read operand. -/
def ReadOperand.bytes : ReadOperand → List Byte
  | .immediate v => [v]
  | .memory m => m.bytes

/-- The operand bytes of a shift's target. -/
def ShiftOperand.bytes : ShiftOperand → List Byte
  | .accumulator => []
  | .memory m => m.toMem.bytes

/-- The operand bytes of an instruction (30_encoding.md R71, R72). -/
def Instr.operandBytes : Instr → List Byte
  | .lda o | .ldx o | .ldy o | .and o | .ora o | .eor o | .adc o | .sbc o | .cmp o | .cpx o | .cpy o => o.bytes
  | .sta m | .stx m | .sty m | .bit m => m.bytes
  | .asl o | .lsr o | .rol o | .ror o => o.bytes
  | .inc m | .dec m => m.toMem.bytes
  | .bpl b | .bmi b | .bvc b | .bvs b | .bcc b | .bcs b | .bne b | .beq b => [b]
  | .jmp (.absolute w) | .jmp (.indirect w) | .jsr w => [loByte w, hiByte w]
  | .inx | .iny | .dex | .dey | .pha | .pla | .php | .plp | .rts | .rti | .brk => []
  | .clc | .sec | .cli | .sei | .cld | .sed | .clv => []
  | .tax | .txa | .tay | .tya | .tsx | .txs | .nop | .undefined _ => []

/-- The opcode among the eight of an instruction that takes the modes of LDA, given in the order of the Encoding line
of R130. -/
def aluOpcode (imm zp zpx abs abx aby izx izy : Byte) : ReadOperand → Option Byte
  | .immediate _ => some imm
  | .memory (.zeroPage _) => some zp
  | .memory (.zeroPageX _) => some zpx
  | .memory (.zeroPageY _) => none
  | .memory (.absolute _) => some abs
  | .memory (.absoluteX _) => some abx
  | .memory (.absoluteY _) => some aby
  | .memory (.indirectX _) => some izx
  | .memory (.indirectY _) => some izy

/-- The opcode of a read-modify-write instruction on memory, given in the order of the Encoding line of R160. -/
def rmwOpcode (zp zpx abs abx : Byte) : RmwMode → Byte
  | .zeroPage _ => zp
  | .zeroPageX _ => zpx
  | .absolute _ => abs
  | .absoluteX _ => abx

/-- The opcode of a shift or rotate, given in the order of the Encoding line of R155. -/
def shiftOpcode (acc zp zpx abs abx : Byte) : ShiftOperand → Byte
  | .accumulator => acc
  | .memory m => rmwOpcode zp zpx abs abx m

/-- The opcode of LDX (R131). -/
def ldxOpcode : ReadOperand → Option Byte
  | .immediate _ => some 0xA2
  | .memory (.zeroPage _) => some 0xA6
  | .memory (.zeroPageY _) => some 0xB6
  | .memory (.absolute _) => some 0xAE
  | .memory (.absoluteY _) => some 0xBE
  | .memory _ => none

/-- The opcode of LDY (R132). -/
def ldyOpcode : ReadOperand → Option Byte
  | .immediate _ => some 0xA0
  | .memory (.zeroPage _) => some 0xA4
  | .memory (.zeroPageX _) => some 0xB4
  | .memory (.absolute _) => some 0xAC
  | .memory (.absoluteX _) => some 0xBC
  | .memory _ => none

/-- The opcode of CPX or CPY, given in the order of the Encoding line of R191. -/
def compareIndexOpcode (imm zp abs : Byte) : ReadOperand → Option Byte
  | .immediate _ => some imm
  | .memory (.zeroPage _) => some zp
  | .memory (.absolute _) => some abs
  | .memory _ => none

/-- The opcode of STA (R135). -/
def staOpcode : MemMode → Option Byte
  | .zeroPage _ => some 0x85
  | .zeroPageX _ => some 0x95
  | .zeroPageY _ => none
  | .absolute _ => some 0x8D
  | .absoluteX _ => some 0x9D
  | .absoluteY _ => some 0x99
  | .indirectX _ => some 0x81
  | .indirectY _ => some 0x91

/-- The opcode of STX (R136). -/
def stxOpcode : MemMode → Option Byte
  | .zeroPage _ => some 0x86
  | .zeroPageY _ => some 0x96
  | .absolute _ => some 0x8E
  | _ => none

/-- The opcode of STY (R137). -/
def styOpcode : MemMode → Option Byte
  | .zeroPage _ => some 0x84
  | .zeroPageX _ => some 0x94
  | .absolute _ => some 0x8C
  | _ => none

/-- The opcode of BIT (R168). -/
def bitOpcode : MemMode → Option Byte
  | .zeroPage _ => some 0x24
  | .absolute _ => some 0x2C
  | _ => none

/-- The opcode byte of an instruction, from the Encoding line of its rule; none where no opcode has that mode. -/
def Instr.opcode : Instr → Option Byte
  | .lda o => aluOpcode 0xA9 0xA5 0xB5 0xAD 0xBD 0xB9 0xA1 0xB1 o
  | .ldx o => ldxOpcode o
  | .ldy o => ldyOpcode o
  | .sta m => staOpcode m
  | .stx m => stxOpcode m
  | .sty m => styOpcode m
  | .and o => aluOpcode 0x29 0x25 0x35 0x2D 0x3D 0x39 0x21 0x31 o
  | .ora o => aluOpcode 0x09 0x05 0x15 0x0D 0x1D 0x19 0x01 0x11 o
  | .eor o => aluOpcode 0x49 0x45 0x55 0x4D 0x5D 0x59 0x41 0x51 o
  | .asl o => some (shiftOpcode 0x0A 0x06 0x16 0x0E 0x1E o)
  | .lsr o => some (shiftOpcode 0x4A 0x46 0x56 0x4E 0x5E o)
  | .rol o => some (shiftOpcode 0x2A 0x26 0x36 0x2E 0x3E o)
  | .ror o => some (shiftOpcode 0x6A 0x66 0x76 0x6E 0x7E o)
  | .inc m => some (rmwOpcode 0xE6 0xF6 0xEE 0xFE m)
  | .dec m => some (rmwOpcode 0xC6 0xD6 0xCE 0xDE m)
  | .inx => some 0xE8
  | .iny => some 0xC8
  | .dex => some 0xCA
  | .dey => some 0x88
  | .bit m => bitOpcode m
  | .adc o => aluOpcode 0x69 0x65 0x75 0x6D 0x7D 0x79 0x61 0x71 o
  | .sbc o => aluOpcode 0xE9 0xE5 0xF5 0xED 0xFD 0xF9 0xE1 0xF1 o
  | .cmp o => aluOpcode 0xC9 0xC5 0xD5 0xCD 0xDD 0xD9 0xC1 0xD1 o
  | .cpx o => compareIndexOpcode 0xE0 0xE4 0xEC o
  | .cpy o => compareIndexOpcode 0xC0 0xC4 0xCC o
  | .pha => some 0x48
  | .pla => some 0x68
  | .php => some 0x08
  | .plp => some 0x28
  | .bpl _ => some 0x10
  | .bmi _ => some 0x30
  | .bvc _ => some 0x50
  | .bvs _ => some 0x70
  | .bcc _ => some 0x90
  | .bcs _ => some 0xB0
  | .bne _ => some 0xD0
  | .beq _ => some 0xF0
  | .jmp (.absolute _) => some 0x4C
  | .jmp (.indirect _) => some 0x6C
  | .jsr _ => some 0x20
  | .rts => some 0x60
  | .rti => some 0x40
  | .brk => some 0x00
  | .clc => some 0x18
  | .sec => some 0x38
  | .cli => some 0x58
  | .sei => some 0x78
  | .cld => some 0xD8
  | .sed => some 0xF8
  | .clv => some 0xB8
  | .tax => some 0xAA
  | .txa => some 0x8A
  | .tay => some 0xA8
  | .tya => some 0x98
  | .tsx => some 0xBA
  | .txs => some 0x9A
  | .nop => some 0xEA
  | .undefined op => if undefinedOpcodes.contains op then some op else none

/-- The bytes of an instruction in memory order (30_encoding.md R70, R71); none where no opcode encodes it. -/
def encode (i : Instr) : Option (List Byte) := i.opcode.map fun op => op :: i.operandBytes

/-- The first three bytes (the longest instruction, 30_encoding.md R70) of an instruction of which `nbits` bits are given as the
number `w`, the first byte in bits 7..0, with zero bits above. -/
def tableBytes (nbits w : Nat) : List Byte :=
  let v := w % 2 ^ nbits
  [BitVec.ofNat 8 v, BitVec.ofNat 8 (v / 256), BitVec.ofNat 8 (v / 65536)]

/-- What the decoder reads from an instruction whose bits are `w`, bit 0 the least significant bit of the first byte. -/
def decodeTableWord (nbits w : Nat) : Option Instr :=
  match decodeBytes (tableBytes nbits w) with
  | .ok (i, _) => some i
  | .error _ => none

end Sys2Proof
end

