-- ==== Sys2Proof/Config.lean ====
section
/-! DEFINITION. The named parameters a model of this core takes as arguments (spec 00_scope.md R11) and their default
values. The spec leaves no other value open, so there is no free value. A state holds the setting it runs under
(`State.cfg`, log entry 1), so a statement over all states is a statement over all settings. -/

namespace Sys2Proof

/-- `ILLEGAL_OPCODE_POLICY`: what the 105 undefined opcodes do (46_flags_transfers_nop.md R280, R281). -/
inductive IllegalOpcodePolicy where
  | nop1
  | fault
  deriving DecidableEq, Repr

/-- `INDY_POINTER_WRAP`: where the high byte of an IndirectY pointer at 0xFF is read (40_addressing.md R110). -/
inductive IndyPointerWrap where
  | zeroPage
  | linear
  deriving DecidableEq, Repr

/-- The three parameters of 00_scope.md R11. -/
structure Config where
  illegalOpcodePolicy : IllegalOpcodePolicy
  indyPointerWrap : IndyPointerWrap
  /-- `MAX_PROGRAM_LENGTH`, in bytes (70_reset_and_hazards.md R347). -/
  maxProgramLength : Nat
  deriving DecidableEq, Repr

/-- The defaults of 00_scope.md R11 (decisions D5, D6, D14 of the spec). -/
def Config.defaults : Config :=
  { illegalOpcodePolicy := .nop1, indyPointerWrap := .zeroPage, maxProgramLength := 65536 }

end Sys2Proof
end

