-- ==== Sys2Proof/Machine/State.lean ====
section
/-! DEFINITION. The state of the machine as plain data: the record of spec 10_state.md R20, the load window of the
execution loop (R45), and the parameters the model runs under (00_scope.md R11); the state right after creation (R46);
the reasons a step can stop. -/

namespace Sys2Proof.Machine

/-- The seven stored flags of P (10_state.md R29). Bit 5 of the packed byte is not stored. -/
structure Flags where
  /-- Carry. -/
  c : Bool
  /-- Zero. -/
  z : Bool
  /-- Interrupt-disable: stored, gates nothing (60_exceptions.md R303). -/
  i : Bool
  /-- Decimal. -/
  d : Bool
  /-- Break: stored, written by PLP and RTI only (R38). -/
  b : Bool
  /-- Overflow. -/
  v : Bool
  /-- Negative. -/
  n : Bool
  deriving DecidableEq, Repr

/-- The 64 KiB memory (20_memory.md R50) as the list of its non-zero bytes, addresses strictly rising
(`Memory.wf`); an unlisted byte reads 0x00, the creation value of every byte (10_state.md R46). -/
abbrev Memory := List Host.Cell

/-- The load window of a run: the integers from `entry` up to, not including, `entry + length`
(70_reset_and_hazards.md R343). -/
structure Window where
  entry : Word
  length : Nat
  deriving DecidableEq, Repr

/-- One core instance. DESIGN CHOICE (log entry 7), safe: other instances and other threads are not in the model. -/
structure State where
  /-- A, the accumulator (R21). -/
  a : Byte
  /-- X, an index register (R22). -/
  x : Byte
  /-- Y, an index register (R23). -/
  y : Byte
  /-- SP, the stack pointer: an offset into page 0x01 (R25). -/
  sp : Byte
  /-- PC (R26). -/
  pc : Word
  /-- P, the status register (R29). -/
  p : Flags
  /-- Cycles, the elapsed-cycle counter (R41). -/
  cycles : CycleCount
  /-- Mem (20_memory.md R50). -/
  mem : Memory
  /-- The load window of the current run, held by the execution loop (R45). -/
  window : Window
  /-- The parameters this machine runs under (00_scope.md R11): the MODEL's own field, which no step changes (log entry
  1). -/
  cfg : Config
  deriving DecidableEq, Repr

/-- A machine right after creation (10_state.md R46, 70_reset_and_hazards.md R330). DESIGN CHOICE (log entry 2): before
the first Execute the load window is empty. The parameters have their defaults (00_scope.md R11). -/
def State.reset : State :=
  { a := 0x00, x := 0x00, y := 0x00, sp := 0xFF, pc := 0x0000,
    p := { c := false, z := false, i := false, d := false, b := false, v := false, n := false },
    cycles := 0, mem := [], window := { entry := 0x0000, length := 0 }, cfg := Config.defaults }

/-- Why the machine stops. -/
inductive Fault where
  /-- `IllegalOpcode(op, PC0)`: raised by the meaning of an undefined opcode under `ILLEGAL_OPCODE_POLICY = fault`, the
  spec's own fault (46_flags_transfers_nop.md R281). Safe: the spec stops here too. -/
  | illegalOpcode (op : Byte) (pc0 : Word)
  deriving DecidableEq, Repr

/-- What the model declines to do. -/
inductive Refusal where
  /-- An instruction without a meaning, by its mnemonic: raised by an arm of `exec` that has none. No arm has none. Safe:
  nothing follows. -/
  | notModelled (mnemonic : String)
  /-- A program of `length` bytes, more than `MAX_PROGRAM_LENGTH`: raised by `load`, never by an instruction
  (70_reset_and_hazards.md R347: "refused by the model (no run)"). Safe: no run follows. -/
  | programTooLong (length : Nat)
  deriving DecidableEq, Repr

/-- The outcome of a step or an instruction. -/
abbrev Result := Host.Outcome State Fault Refusal

end Sys2Proof.Machine
end

