-- ==== Sys2Proof/Machine/Flags.lean ====
section
/-! DEFINITION. The status register as a byte, the flag computations, and the ALU: pure functions of their inputs, in
the arithmetic of the spec's pseudocode (exact integers, narrowed at the end). -/

namespace Sys2Proof.Machine

/-- `Pack(P)` (10_state.md R30): N V 1 B D I Z C from bit 7 down. -/
def Flags.pack (p : Flags) : Byte :=
  BitVec.ofNat 8 (p.n.toNat * 128 + p.v.toNat * 64 + 32 + p.b.toNat * 16 + p.d.toNat * 8 + p.i.toNat * 4 +
    p.z.toNat * 2 + p.c.toNat * 1)

/-- `Unpack(b)` (10_state.md R31); bit 5 is ignored. -/
def Flags.unpack (b : Byte) : Flags :=
  { n := b.getLsbD 7, v := b.getLsbD 6, b := b.getLsbD 4, d := b.getLsbD 3, i := b.getLsbD 2, z := b.getLsbD 1,
    c := b.getLsbD 0 }

/-- `setNZ(v)` (10_state.md R33). -/
def Flags.setNZ (p : Flags) (v : Byte) : Flags := { p with z := v == 0, n := v.getLsbD 7 }

/-- The result, carry out and signed overflow of a binary addition or subtraction. -/
structure AluSum where
  result : Byte
  carry : Bool
  overflow : Bool
  deriving DecidableEq, Repr

/-- A result byte with a carry out: of a decimal addition or subtraction, a shift or a rotate. -/
structure Carried where
  result : Byte
  carry : Bool
  deriving DecidableEq, Repr

/-- `AddBinary(a, m, c)` (43_arithmetic_compare.md R180). -/
def addBinary (a m : Byte) (c : Bool) : AluSum :=
  let s := a.toNat + m.toNat + c.toNat
  let r : Byte := BitVec.ofNat 8 s
  { result := r, carry := decide (s > 255),
    overflow := a.getLsbD 7 == m.getLsbD 7 && r.getLsbD 7 != a.getLsbD 7 }

/-- `SubBinary(a, m, c)` is `AddBinary(a, ~m, c)` (R182). -/
def subBinary (a m : Byte) (c : Bool) : AluSum := addBinary a (~~~m) c

/-- `AddDecimal(a, m, c)`, the nibble algorithm of R181 (decision D7 of the spec), for every byte pair. -/
def addDecimal (a m : Byte) (c : Bool) : Carried :=
  let lo := a.toNat % 16 + m.toNat % 16 + c.toNat
  let lo := if lo > 9 then lo + 6 else lo
  let hc := if lo > 0x0F then 1 else 0
  let hi := a.toNat / 16 + m.toNat / 16 + hc
  let cout := decide (hi > 9)
  let hi := if hi > 9 then hi + 6 else hi
  { result := BitVec.ofNat 8 (hi % 16 * 16 + lo % 16), carry := cout }

/-- `SubDecimal(a, m, c)`, the nibble algorithm of R183 (decision D8 of the spec), for every byte pair; `%` on integers
gives 0..15 for negative values too. -/
def subDecimal (a m : Byte) (c : Bool) : Carried :=
  let lo : Int := (a.toNat % 16 : Nat) - (m.toNat % 16 : Nat) - (1 - c.toNat)
  let hb : Int := if lo < 0 then 1 else 0
  let lo := if lo < 0 then lo - 6 else lo
  let hi : Int := (a.toNat / 16 : Nat) - (m.toNat / 16 : Nat) - hb
  let cout := decide (¬ hi < 0)
  let hi := if hi < 0 then hi - 6 else hi
  { result := BitVec.ofInt 8 (hi % 16 * 16 + lo % 16), carry := cout }

/-- The flags `Compare(r, m)` leaves (R188). -/
def Flags.compare (p : Flags) (r m : Byte) : Flags :=
  ({ p with c := decide (r.toNat ≥ m.toNat) } : Flags).setNZ (r - m)

/-- ASL (42_logical_shift_incdec_bit.md R155): the result and the bit shifted out. -/
def shiftLeft (v : Byte) : Carried := { result := BitVec.ofNat 8 (v.toNat * 2), carry := v.getLsbD 7 }

/-- LSR (R156). -/
def shiftRight (v : Byte) : Carried := { result := BitVec.ofNat 8 (v.toNat / 2), carry := v.getLsbD 0 }

/-- ROL (R157), with the old carry `c`. -/
def rotateLeft (v : Byte) (c : Bool) : Carried :=
  { result := BitVec.ofNat 8 (v.toNat * 2 + c.toNat), carry := v.getLsbD 7 }

/-- ROR (R158), with the old carry `c`. -/
def rotateRight (v : Byte) (c : Bool) : Carried :=
  { result := BitVec.ofNat 8 (v.toNat / 2 + c.toNat * 128), carry := v.getLsbD 0 }

/-- The flags a shift or rotate leaves: C the bit shifted out, Z and N of the result (R155 to R158). -/
def Flags.afterShift (p : Flags) (r : Carried) : Flags := ({ p with c := r.carry } : Flags).setNZ r.result

/-- The flags BIT leaves, for the accumulator `a` and the memory byte `m` (R168). -/
def Flags.afterBit (p : Flags) (a m : Byte) : Flags :=
  { p with z := (a &&& m) == 0, n := m.getLsbD 7, v := m.getLsbD 6 }

end Sys2Proof.Machine
end

