-- ==== Sys2Proof/Machine/Ops.lean ====
section
/-! DEFINITION. The named operations over memory, registers, stack and load window that the meanings are written with.
The core takes no exception (spec 60_exceptions.md R300, R305): its one fault is `raiseIllegalOpcode`, and what RTI
restores is `returnFromInterrupt`. -/

namespace Sys2Proof.Machine

/-- The byte at an address: 0x00 where nothing is listed (20_memory.md R52). -/
def Memory.read : Memory → Nat → Byte
  | [], _ => 0
  | (k, v) :: rest, a => if k = a then v else Memory.read rest a

/-- The memory with a non-zero byte put at its place by address. -/
def Memory.insert : Memory → Nat → Byte → Memory
  | [], a, v => [(a, v)]
  | (k, u) :: rest, a, v =>
    if a < k then (a, v) :: (k, u) :: rest
    else if a = k then (a, v) :: rest
    else (k, u) :: Memory.insert rest a v

/-- The memory with the byte at `a` set to `v` and no other changed (20_memory.md R52); a byte 0x00 is unlisted. -/
def Memory.write (m : Memory) (a : Nat) (v : Byte) : Memory :=
  if v = 0 then m.filter (fun cell => cell.1 ≠ a) else Memory.insert m a v

/-- The canonical form of a memory: addresses in 0..65535, strictly rising, no listed byte 0x00. -/
def Memory.wf : Memory → Bool
  | [] => true
  | (k, v) :: rest => decide (k < 65536) && v != 0 && rest.all (fun cell => decide (k < cell.1)) && Memory.wf rest

/-- `MemRead(addr, 1)` (00_scope.md R16). -/
def State.readByte (s : State) (addr : Word) : Byte := s.mem.read addr.toNat

/-- `MemWrite(addr, 1, v)` (00_scope.md R16). -/
def State.writeByte (s : State) (addr : Word) (v : Byte) : State := { s with mem := s.mem.write addr.toNat v }

/-- `A <- v` (00_scope.md R16). -/
def State.setA (s : State) (v : Byte) : State := { s with a := v }

/-- `X <- v`. -/
def State.setX (s : State) (v : Byte) : State := { s with x := v }

/-- `Y <- v`. -/
def State.setY (s : State) (v : Byte) : State := { s with y := v }

/-- `SP <- v`. -/
def State.setSp (s : State) (v : Byte) : State := { s with sp := v }

/-- `PC <- target`. -/
def State.setPc (s : State) (target : Word) : State := { s with pc := target }

/-- P as a whole. -/
def State.setP (s : State) (p : Flags) : State := { s with p := p }

/-- `setNZ(v)` (10_state.md R33). -/
def State.setNZ (s : State) (v : Byte) : State := s.setP (s.p.setNZ v)

/-- `Cycles <- Cycles + n`, modulo 2^64 (10_state.md R41). -/
def State.charge (s : State) (n : Nat) : State := { s with cycles := s.cycles + BitVec.ofNat 64 n }

/-- The address of the stack byte SP designates: `word(0x01, SP)` (10_state.md R25). -/
def stackAddr (sp : Byte) : Word := word 0x01 sp

/-- `Push(v)` (20_memory.md R57). -/
def State.push (s : State) (v : Byte) : State := (s.writeByte (stackAddr s.sp) v).setSp (s.sp - 1)

/-- The state `Pull()` leaves: SP one up (20_memory.md R58). -/
def State.pulled (s : State) : State := s.setSp (s.sp + 1)

/-- The byte `Pull()` returns: the one SP designates after its increment (20_memory.md R58). -/
def State.pullByte (s : State) : Byte := s.readByte (stackAddr (s.sp + 1))

/-- `sext_16(b)` (00_scope.md R15). -/
def sext16 (b : Byte) : Word := if b.getLsbD 7 then b.setWidth 16 + 0xFF00 else b.setWidth 16

/-- `zext_16(b)` (00_scope.md R15). -/
def zext16 (b : Byte) : Word := b.setWidth 16

/-- What RTI restores: P from the first pulled byte, PC from the second (low) and third (high), nothing added
(45_control.md R250). -/
def State.returnFromInterrupt (s : State) : State :=
  let s1 := s.pulled.setP (Flags.unpack s.pullByte)
  let s2 := s1.pulled
  s2.pulled.setPc (word s2.pullByte s1.pullByte)

/-- `raise IllegalOpcode(op, PC0)`: the run ends, no state changes (46_flags_transfers_nop.md R281). `s` is the state
before the fetch, so PC0 is its PC. -/
def raiseIllegalOpcode (op : Byte) (s : State) : Result := .fault (.illegalOpcode op s.pc)

/-- `inWindow(PC)` (70_reset_and_hazards.md R343), on integers. -/
def State.inWindow (s : State) : Bool :=
  decide (s.window.entry.toNat ≤ s.pc.toNat) && decide (s.pc.toNat < s.window.entry.toNat + s.window.length)

/-- The run has ended: PC is outside the load window at an instruction boundary (R343, R349). -/
def State.halted (s : State) : Bool := !s.inWindow

/-- The host's write of one memory byte before a run (R348). That no run is under way is the host's to keep: `Reachable`
admits the write only on a halted machine (log entry 8). -/
def State.seed (s : State) (addr : Word) (v : Byte) : State := s.writeByte addr v

/-- The instruction whose opcode byte is at PC, its operand bytes at the next addresses modulo 65536 (R342;
40_addressing.md R101). DEDUCED (log entry 6): memory reads have no side effects (20_memory.md R55), so reading a byte
the instruction does not consume is not observable; safe. -/
def State.fetch (s : State) : Instr := decode (s.readByte s.pc) (s.readByte (s.pc + 1)) (s.readByte (s.pc + 2))

end Sys2Proof.Machine
end

