-- ==== Sys2Proof/Machine/Operands.lean ====
section
/-! DEFINITION. The addressing-mode resolver (spec 40_addressing.md): the effective address of each mode, the
`page_crossed` signal, and operand values. Operand bytes are in the instruction already (`State.fetch`), so resolving
reads only pointer bytes and changes no state (R114). -/

namespace Sys2Proof.Machine

/-- What the resolver reports for a memory mode (R100). -/
structure Resolved where
  ea : Word
  pageCrossed : Bool
  deriving DecidableEq, Repr

/-- A base address plus an index register, carry into the high byte, modulo 65536; a page is crossed where the high byte
changes (R107, R110). -/
def indexed (base : Word) (r : Byte) : Resolved :=
  let ea := base + zext16 r
  { ea := ea, pageCrossed := hiByte ea != hiByte base }

/-- The address of the high byte of an IndirectY pointer at zero-page address `b`, by `INDY_POINTER_WRAP` (R110). -/
def indyHighAddr (wrap : IndyPointerWrap) (b : Byte) : Word :=
  match wrap with
  | .zeroPage => word 0x00 (b + 1)
  | .linear => zext16 b + 1

/-- The target of a branch whose next instruction is at `pcNext` (R112). -/
def branchTarget (pcNext : Word) (b : Byte) : Word := pcNext + sext16 b

end Sys2Proof.Machine

namespace Sys2Proof

open Machine

/-- `EA(mode)` and `page_crossed` of a memory mode in state `s`. -/
def MemMode.resolve (m : MemMode) (s : State) : Resolved :=
  match m with
  | .zeroPage b => { ea := word 0x00 b, pageCrossed := false }
  | .zeroPageX b => { ea := word 0x00 (b + s.x), pageCrossed := false }
  | .zeroPageY b => { ea := word 0x00 (b + s.y), pageCrossed := false }
  | .absolute w => { ea := w, pageCrossed := false }
  | .absoluteX w => indexed w s.x
  | .absoluteY w => indexed w s.y
  | .indirectX b =>
    let p := b + s.x
    { ea := word (s.readByte (word 0x00 (p + 1))) (s.readByte (word 0x00 p)), pageCrossed := false }
  | .indirectY b =>
    indexed (word (s.readByte (indyHighAddr s.cfg.indyPointerWrap b)) (s.readByte (word 0x00 b))) s.y

/-- The effective address of a memory mode. -/
def MemMode.ea (m : MemMode) (s : State) : Word := (m.resolve s).ea

/-- The `page_crossed` signal of a memory mode. -/
def MemMode.pageCrossed (m : MemMode) (s : State) : Bool := (m.resolve s).pageCrossed

/-- `Operand(mode)` of a read instruction (R100, R102). -/
def ReadOperand.value (o : ReadOperand) (s : State) : Byte :=
  match o with
  | .immediate v => v
  | .memory m => s.readByte (m.ea s)

/-- The `page_crossed` signal of a read operand; false for Immediate (R102). -/
def ReadOperand.pageCrossed (o : ReadOperand) (s : State) : Bool :=
  match o with
  | .immediate _ => false
  | .memory m => m.pageCrossed s

/-- The effective address of a read-modify-write operand. -/
def RmwMode.ea (m : RmwMode) (s : State) : Word := m.toMem.ea s

/-- The `page_crossed` signal of a read-modify-write operand. -/
def RmwMode.pageCrossed (m : RmwMode) (s : State) : Bool := m.toMem.pageCrossed s

/-- The target of JMP: `EA(Absolute)`, or `EA(Indirect)` with its high byte read from the page of the pointer (R106,
R108). -/
def JumpOperand.target (o : JumpOperand) (s : State) : Word :=
  match o with
  | .absolute w => w
  | .indirect ptr => word (s.readByte (word (hiByte ptr) (loByte ptr + 1))) (s.readByte ptr)

end Sys2Proof
end

