-- ==== Sys2Proof/Machine/Cycles.lean ====
section
/-! DEFINITION. Cycle accounting (spec 70_reset_and_hazards.md R360 to R362) and the base costs of 30_encoding.md R78. -/

namespace Sys2Proof

/-- The cycles column of R78 for a read instruction. -/
def ReadOperand.readCycles : ReadOperand → Nat
  | .immediate _ => 2
  | .memory (.zeroPage _) => 3
  | .memory (.zeroPageX _) | .memory (.zeroPageY _) => 4
  | .memory (.absolute _) | .memory (.absoluteX _) | .memory (.absoluteY _) => 4
  | .memory (.indirectX _) => 6
  | .memory (.indirectY _) => 5

/-- The cycles column of R78 for a store. -/
def MemMode.storeCycles : MemMode → Nat
  | .zeroPage _ => 3
  | .zeroPageX _ | .zeroPageY _ => 4
  | .absolute _ => 4
  | .absoluteX _ | .absoluteY _ => 5
  | .indirectX _ | .indirectY _ => 6

/-- The cycles column of R78 for a read-modify-write instruction on memory. -/
def RmwMode.rmwCycles : RmwMode → Nat
  | .zeroPage _ => 5
  | .zeroPageX _ => 6
  | .absolute _ => 6
  | .absoluteX _ => 7

/-- The cycles column of R78 for a shift or rotate. -/
def ShiftOperand.shiftCycles : ShiftOperand → Nat
  | .accumulator => 2
  | .memory m => m.rmwCycles

/-- `base(op)`: the cycles column of 30_encoding.md R78, and 2 for an undefined opcode (R280). -/
def Instr.baseCycles : Instr → Nat
  | .lda o | .ldx o | .ldy o | .and o | .ora o | .eor o | .adc o | .sbc o | .cmp o | .cpx o | .cpy o => o.readCycles
  | .bit m => (ReadOperand.memory m).readCycles
  | .sta m | .stx m | .sty m => m.storeCycles
  | .asl o | .lsr o | .rol o | .ror o => o.shiftCycles
  | .inc m | .dec m => m.rmwCycles
  | .inx | .iny | .dex | .dey => 2
  | .pha | .php => 3
  | .pla | .plp => 4
  | .bpl _ | .bmi _ | .bvc _ | .bvs _ | .bcc _ | .bcs _ | .bne _ | .beq _ => 2
  | .jmp (.absolute _) => 3
  | .jmp (.indirect _) => 5
  | .jsr _ | .rts | .rti => 6
  | .brk => 7
  | .clc | .sec | .cli | .sei | .cld | .sed | .clv => 2
  | .tax | .txa | .tay | .tya | .tsx | .txs | .nop | .undefined _ => 2

/-- The opcodes marked `+pc`: the AbsoluteX, AbsoluteY and IndirectY forms of ADC, AND, CMP, EOR, LDA, ORA, SBC, and
LDX AbsoluteY and LDY AbsoluteX (R361). -/
def Instr.pagePenalised : Instr → Bool
  | .adc o | .and o | .cmp o | .eor o | .lda o | .ora o | .sbc o =>
    o.mode == .absoluteX || o.mode == .absoluteY || o.mode == .indirectY
  | .ldx o => o.mode == .absoluteY
  | .ldy o => o.mode == .absoluteX
  | .sta _ | .stx _ | .sty _ | .asl _ | .lsr _ | .rol _ | .ror _ | .inc _ | .dec _ => false
  | .inx | .iny | .dex | .dey | .bit _ | .cpx _ | .cpy _ | .pha | .pla | .php | .plp => false
  | .bpl _ | .bmi _ | .bvc _ | .bvs _ | .bcc _ | .bcs _ | .bne _ | .beq _ => false
  | .jmp _ | .jsr _ | .rts | .rti | .brk => false
  | .clc | .sec | .cli | .sei | .cld | .sed | .clv => false
  | .tax | .txa | .tay | .tya | .tsx | .txs | .nop | .undefined _ => false

end Sys2Proof

namespace Sys2Proof.Machine

/-- `pagePenalty` (R361). -/
def pagePenalty (i : Instr) (pageCrossed : Bool) : Nat := if i.pagePenalised && pageCrossed then 1 else 0

/-- `branchPenalty` of a branch (R362): the page comparison is between the address after the branch and the target. -/
def branchPenalty (taken : Bool) (target pcNext : Word) : Nat :=
  if taken then (if hiByte target = hiByte pcNext then 1 else 2) else 0

/-- `Cost = base(op) + pagePenalty + branchPenalty` (R360). -/
def cost (i : Instr) (pageCrossed : Bool) (branchPart : Nat) : Nat :=
  i.baseCycles + pagePenalty i pageCrossed + branchPart

end Sys2Proof.Machine
end

