-- ==== Sys2Proof/Machine/Forms.lean ====
section
/-! DEFINITION. The shapes the meanings share, each one `Step` of spec 70_reset_and_hazards.md R342 after decoding: PC goes
to PCnext, the operand is resolved in the state before the instruction, the operation runs, the cost is added. -/

namespace Sys2Proof.Machine

/-- The state in which the operation of `i` executes: PC is PCnext (10_state.md R27). -/
def State.toPcNext (s : State) (i : Instr) : State := s.setPc (s.pc + BitVec.ofNat 16 i.length)

/-- The end of an instruction: its cost is added to Cycles (R342, R360). -/
def complete (i : Instr) (pageCrossed : Bool) (branchPart : Nat) (s : State) : Result :=
  .next (s.charge (cost i pageCrossed branchPart))

/-- A read instruction: `op v` is its operation on the operand value `v`. -/
def readForm (i : Instr) (o : ReadOperand) (op : Byte → State → State) (s : State) : Result :=
  complete i (o.pageCrossed s) 0 (op (o.value s) (s.toPcNext i))

/-- A store of the byte `v` (41_load_store.md R135): EA is written once and never read. -/
def storeForm (i : Instr) (m : MemMode) (v : Byte) (s : State) : Result :=
  complete i (m.pageCrossed s) 0 ((s.toPcNext i).writeByte (m.ea s) v)

/-- An increment or decrement of a memory byte by `f`: one read of EA, then one write of EA (20_memory.md R55). -/
def rmwForm (i : Instr) (m : RmwMode) (f : Byte → Byte) (s : State) : Result :=
  let r := f (s.readByte (m.ea s))
  complete i (m.pageCrossed s) 0 (((s.toPcNext i).writeByte (m.ea s) r).setNZ r)

/-- A shift or rotate `f` of its target, given the old carry (42_logical_shift_incdec_bit.md R154): A, or the byte at
EA. -/
def shiftForm (i : Instr) (o : ShiftOperand) (f : Byte → Bool → Carried) (s : State) : Result :=
  match o with
  | .accumulator =>
    let r := f s.a s.p.c
    complete i false 0 (((s.toPcNext i).setA r.result).setP (s.p.afterShift r))
  | .memory m =>
    let r := f (s.readByte (m.ea s)) s.p.c
    complete i (m.pageCrossed s) 0 (((s.toPcNext i).writeByte (m.ea s) r.result).setP (s.p.afterShift r))

/-- An Implied instruction whose operation is `op`. -/
def impliedForm (i : Instr) (op : State → State) (s : State) : Result := complete i false 0 (op (s.toPcNext i))

/-- A conditional branch (45_control.md R230): PC goes to the target where the branch is taken. -/
def branchForm (i : Instr) (taken : Bool) (b : Byte) (s : State) : Result :=
  let s1 := s.toPcNext i
  let target := branchTarget s1.pc b
  complete i false (branchPenalty taken target s1.pc) (if taken then s1.setPc target else s1)

/-- What ADC and SBC do with the binary and the decimal result: D chooses A, C, Z and N; V is always the binary
overflow (43_arithmetic_compare.md R184 to R186). -/
def State.arithmetic (s : State) (binary : AluSum) (decimal : Carried) : State :=
  if s.p.d then
    ((s.setA decimal.result).setP { s.p with c := decimal.carry, v := binary.overflow }).setNZ decimal.result
  else
    ((s.setA binary.result).setP { s.p with c := binary.carry, v := binary.overflow }).setNZ binary.result

end Sys2Proof.Machine
end

