-- ==== Sys2Proof/Machine/Arith.lean ====
section
/-! DEFINITION. ADC, SBC and the compares (spec 43_arithmetic_compare.md). -/

namespace Sys2Proof.Machine

/-- ADC (R185). -/
def execAdc (o : ReadOperand) (s : State) : Result :=
  readForm (.adc o) o (fun m t => t.arithmetic (addBinary t.a m t.p.c) (addDecimal t.a m t.p.c)) s

/-- SBC (R186). -/
def execSbc (o : ReadOperand) (s : State) : Result :=
  readForm (.sbc o) o (fun m t => t.arithmetic (subBinary t.a m t.p.c) (subDecimal t.a m t.p.c)) s

/-- CMP (R190). -/
def execCmp (o : ReadOperand) (s : State) : Result :=
  readForm (.cmp o) o (fun m t => t.setP (t.p.compare t.a m)) s

/-- CPX (R191). -/
def execCpx (o : ReadOperand) (s : State) : Result :=
  readForm (.cpx o) o (fun m t => t.setP (t.p.compare t.x m)) s

/-- CPY (R192). -/
def execCpy (o : ReadOperand) (s : State) : Result :=
  readForm (.cpy o) o (fun m t => t.setP (t.p.compare t.y m)) s

end Sys2Proof.Machine
end

