-- ==== Sys2Proof/Machine/Control.lean ====
section
/-! DEFINITION. Control transfer (spec 45_control.md). -/

namespace Sys2Proof.Machine

/-- BPL (R231). -/
def execBpl (b : Byte) (s : State) : Result := branchForm (.bpl b) (s.p.n == false) b s

/-- BMI (R232). -/
def execBmi (b : Byte) (s : State) : Result := branchForm (.bmi b) (s.p.n == true) b s

/-- BVC (R233). -/
def execBvc (b : Byte) (s : State) : Result := branchForm (.bvc b) (s.p.v == false) b s

/-- BVS (R234). -/
def execBvs (b : Byte) (s : State) : Result := branchForm (.bvs b) (s.p.v == true) b s

/-- BCC (R235). -/
def execBcc (b : Byte) (s : State) : Result := branchForm (.bcc b) (s.p.c == false) b s

/-- BCS (R236). -/
def execBcs (b : Byte) (s : State) : Result := branchForm (.bcs b) (s.p.c == true) b s

/-- BNE (R237). -/
def execBne (b : Byte) (s : State) : Result := branchForm (.bne b) (s.p.z == false) b s

/-- BEQ (R238). -/
def execBeq (b : Byte) (s : State) : Result := branchForm (.beq b) (s.p.z == true) b s

/-- JMP (R240, R241). -/
def execJmp (o : JumpOperand) (s : State) : Result := impliedForm (.jmp o) (fun t => t.setPc (o.target s)) s

/-- JSR (R245): the pushed address is that of the instruction's last byte. -/
def execJsr (target : Word) (s : State) : Result :=
  impliedForm (.jsr target) (fun t =>
    let ret := t.pc - 1
    ((t.push (hiByte ret)).push (loByte ret)).setPc target) s

/-- RTS (R246). -/
def execRts (s : State) : Result :=
  impliedForm .rts (fun t =>
    let t1 := t.pulled
    t1.pulled.setPc (word t1.pullByte t.pullByte + 1)) s

/-- RTI (R250). -/
def execRti (s : State) : Result := impliedForm .rti (fun t => t.returnFromInterrupt) s

/-- BRK (R252): the opcode fetch and the cost, nothing else. -/
def execBrk (s : State) : Result := impliedForm .brk (fun t => t) s

end Sys2Proof.Machine
end

