-- ==== Sys2Proof/Machine/FlagsTransfers.lean ====
section
/-! DEFINITION. Flag set and clear, register transfers, NOP and undefined opcodes (spec 46_flags_transfers_nop.md). -/

namespace Sys2Proof.Machine

/-- CLC (R260). -/
def execClc (s : State) : Result := impliedForm .clc (fun t => t.setP { t.p with c := false }) s

/-- SEC (R261). -/
def execSec (s : State) : Result := impliedForm .sec (fun t => t.setP { t.p with c := true }) s

/-- CLI (R262). -/
def execCli (s : State) : Result := impliedForm .cli (fun t => t.setP { t.p with i := false }) s

/-- SEI (R263). -/
def execSei (s : State) : Result := impliedForm .sei (fun t => t.setP { t.p with i := true }) s

/-- CLD (R264). -/
def execCld (s : State) : Result := impliedForm .cld (fun t => t.setP { t.p with d := false }) s

/-- SED (R265). -/
def execSed (s : State) : Result := impliedForm .sed (fun t => t.setP { t.p with d := true }) s

/-- CLV (R266). -/
def execClv (s : State) : Result := impliedForm .clv (fun t => t.setP { t.p with v := false }) s

/-- TAX (R270). -/
def execTax (s : State) : Result := impliedForm .tax (fun t => (t.setX t.a).setNZ t.a) s

/-- TXA (R271). -/
def execTxa (s : State) : Result := impliedForm .txa (fun t => (t.setA t.x).setNZ t.x) s

/-- TAY (R272). -/
def execTay (s : State) : Result := impliedForm .tay (fun t => (t.setY t.a).setNZ t.a) s

/-- TYA (R273). -/
def execTya (s : State) : Result := impliedForm .tya (fun t => (t.setA t.y).setNZ t.y) s

/-- TSX (R274). -/
def execTsx (s : State) : Result := impliedForm .tsx (fun t => (t.setX t.sp).setNZ t.sp) s

/-- TXS (R275): no flag is written. -/
def execTxs (s : State) : Result := impliedForm .txs (fun t => t.setSp t.x) s

/-- NOP (R278). -/
def execNop (s : State) : Result := impliedForm .nop (fun t => t) s

/-- An undefined opcode, by `ILLEGAL_OPCODE_POLICY`: a 1-byte, 2-cycle instruction with no other effect (R280), or the
fault that leaves the state as it is (R281). -/
def execUndefined (op : Byte) (s : State) : Result :=
  match s.cfg.illegalOpcodePolicy with
  | .nop1 => impliedForm (.undefined op) (fun t => t) s
  | .fault => raiseIllegalOpcode op s

end Sys2Proof.Machine
end

