-- ==== Sys2Proof/Machine/LoadStore.lean ====
section
/-! DEFINITION. Loads and stores (spec 41_load_store.md). -/

namespace Sys2Proof.Machine

/-- LDA (R130). -/
def execLda (o : ReadOperand) (s : State) : Result := readForm (.lda o) o (fun v t => (t.setA v).setNZ v) s

/-- LDX (R131). -/
def execLdx (o : ReadOperand) (s : State) : Result := readForm (.ldx o) o (fun v t => (t.setX v).setNZ v) s

/-- LDY (R132). -/
def execLdy (o : ReadOperand) (s : State) : Result := readForm (.ldy o) o (fun v t => (t.setY v).setNZ v) s

/-- STA (R135). -/
def execSta (m : MemMode) (s : State) : Result := storeForm (.sta m) m s.a s

/-- STX (R136). -/
def execStx (m : MemMode) (s : State) : Result := storeForm (.stx m) m s.x s

/-- STY (R137). -/
def execSty (m : MemMode) (s : State) : Result := storeForm (.sty m) m s.y s

end Sys2Proof.Machine
end

