-- ==== Sys2Proof/Machine/Logic.lean ====
section
/-! DEFINITION. Logical operations, shifts, increments and decrements, and BIT (spec 42_logical_shift_incdec_bit.md). -/

namespace Sys2Proof.Machine

/-- AND (R150). -/
def execAnd (o : ReadOperand) (s : State) : Result :=
  readForm (.and o) o (fun v t => (t.setA (t.a &&& v)).setNZ (t.a &&& v)) s

/-- ORA (R151). -/
def execOra (o : ReadOperand) (s : State) : Result :=
  readForm (.ora o) o (fun v t => (t.setA (t.a ||| v)).setNZ (t.a ||| v)) s

/-- EOR (R152). -/
def execEor (o : ReadOperand) (s : State) : Result :=
  readForm (.eor o) o (fun v t => (t.setA (t.a ^^^ v)).setNZ (t.a ^^^ v)) s

/-- ASL (R155). -/
def execAsl (o : ShiftOperand) (s : State) : Result := shiftForm (.asl o) o (fun v _ => shiftLeft v) s

/-- LSR (R156). -/
def execLsr (o : ShiftOperand) (s : State) : Result := shiftForm (.lsr o) o (fun v _ => shiftRight v) s

/-- ROL (R157). -/
def execRol (o : ShiftOperand) (s : State) : Result := shiftForm (.rol o) o rotateLeft s

/-- ROR (R158). -/
def execRor (o : ShiftOperand) (s : State) : Result := shiftForm (.ror o) o rotateRight s

/-- INC (R160). -/
def execInc (m : RmwMode) (s : State) : Result := rmwForm (.inc m) m (fun v => v + 1) s

/-- DEC (R161). -/
def execDec (m : RmwMode) (s : State) : Result := rmwForm (.dec m) m (fun v => v + 255) s

/-- INX (R162). -/
def execInx (s : State) : Result := impliedForm .inx (fun t => (t.setX (t.x + 1)).setNZ (t.x + 1)) s

/-- INY (R163). -/
def execIny (s : State) : Result := impliedForm .iny (fun t => (t.setY (t.y + 1)).setNZ (t.y + 1)) s

/-- DEX (R164). -/
def execDex (s : State) : Result := impliedForm .dex (fun t => (t.setX (t.x + 255)).setNZ (t.x + 255)) s

/-- DEY (R165). -/
def execDey (s : State) : Result := impliedForm .dey (fun t => (t.setY (t.y + 255)).setNZ (t.y + 255)) s

/-- BIT (R168). -/
def execBit (m : MemMode) (s : State) : Result :=
  readForm (.bit m) (.memory m) (fun v t => t.setP (t.p.afterBit t.a v)) s

end Sys2Proof.Machine
end

