-- ==== Sys2Proof/Machine/Stack.lean ====
section
/-! DEFINITION. Stack operations (spec 44_stack.md). -/

namespace Sys2Proof.Machine

/-- PHA (R210). -/
def execPha (s : State) : Result := impliedForm .pha (fun t => t.push t.a) s

/-- PLA (R211). -/
def execPla (s : State) : Result := impliedForm .pla (fun t => (t.pulled.setA t.pullByte).setNZ t.pullByte) s

/-- PHP (R212). -/
def execPhp (s : State) : Result := impliedForm .php (fun t => t.push t.p.pack) s

/-- PLP (R213). -/
def execPlp (s : State) : Result := impliedForm .plp (fun t => t.pulled.setP (Flags.unpack t.pullByte)) s

end Sys2Proof.Machine
end

