-- ==== Sys2Proof/Machine/Loader.lean ====
section
/-! DEFINITION. How a program comes into the machine: what `Execute(entry, program)` does before its first step (spec
70_reset_and_hazards.md R341, R347), from the host's side of the interface. -/

namespace Sys2Proof.Machine

/-- The program bytes copied into memory, the first at `addr`, addresses modulo 65536 (R341). -/
def State.storeBytes (s : State) (addr : Word) : List Byte → State
  | [] => s
  | v :: rest => State.storeBytes (s.writeByte addr v) (addr + 1) rest

/-- The program loaded, PC at its entry, its load window set: "Copies programBytes into Memory starting at
entryAddress. Sets ProgramCounter = entryAddress." (R341). Every other register, P and Cycles stay (D13 of the spec). -/
def State.position (s : State) (entry : Word) (program : List Byte) : State :=
  { (s.storeBytes entry program).setPc entry with window := { entry := entry, length := program.length } }

/-- The start of `Execute(entry, program)`: a program longer than `MAX_PROGRAM_LENGTH` is refused (R347). -/
def load (entry : Word) (program : List Byte) (s : State) : Result :=
  if program.length > s.cfg.maxProgramLength then .refused (.programTooLong program.length)
  else .next (s.position entry program)

end Sys2Proof.Machine
end

