-- ==== Sys2Proof/Machine/Step.lean ====
section
/-! DEFINITION. One step of the machine: an instruction of the core where PC is in the load window, and nothing after
the run has halted. -/

namespace Sys2Proof.Machine

/-- One `Step` of the core (spec 70_reset_and_hazards.md R342): fetch and decode at PC, then the instruction, which
moves PC, has its effect and adds its cost. It does not look at the load window. -/
def coreStep (s : State) : Host.Outcome State Fault Refusal := exec s.fetch s

/-- One round of the execution loop: `while inWindow(PC) and no fault: Step` (R344). DESIGN CHOICE (log entry 3): after
the halt a step answers the same state, the final state of the run (R345). -/
def step (s : State) : Host.Outcome State Fault Refusal := if s.inWindow then coreStep s else .next s

/-- `s` with the instruction whose first `nbits` bits are `w` loaded at its PC as a run's program (log entry 4). -/
def State.withFetchWord (s : State) (nbits w : Nat) : State := s.position s.pc (tableBytes nbits w)

end Sys2Proof.Machine
end

