-- ==== Sys2Proof/Machine/Execute.lean ====
section
/-! DEFINITION. `Execute(entry, program)`, "the sole public operation that advances the machine" (spec
70_reset_and_hazards.md R340), with the caller's bound on its steps that R346 speaks of, and how a run ends (R349). -/

namespace Sys2Proof.Machine

/-- How a bounded run stands when the loop or its caller stops it. -/
inductive RunEnd where
  /-- At an instruction boundary PC was outside the load window: the run has ended in `final` (R343, R345, R349). -/
  | halted (final : State)
  /-- The instruction at PC raised a fault: the run has ended in `final`, the state at that boundary (R342, R349), which the
  fault left as it was (46_flags_transfers_nop.md R281). -/
  | faulted (final : State) (reason : Fault)
  /-- The caller's bound is used up and PC is still in the window: no end of the run (60_exceptions.md R315). -/
  | cutShort (reached : State)
  /-- There was no run (R347), or an instruction was refused, which no arm of `exec` does. -/
  | refused (reason : Refusal)
  deriving DecidableEq, Repr

/-- The final state of a run, where it has one (R349). -/
def RunEnd.finalState : RunEnd → Option State
  | .halted final => some final
  | .faulted final _ => some final
  | .cutShort _ => none
  | .refused _ => none

/-- At most `fuel` rounds of the loop `while inWindow(PC) and no fault: Step` (R344). -/
def runWindow : Nat → State → RunEnd
  | 0, s => if s.inWindow then .cutShort s else .halted s
  | fuel + 1, s =>
    if s.inWindow then
      match step s with
      | .next t => runWindow fuel t
      | .fault r => .faulted s r
      | .refused r => .refused r
    else .halted s

/-- Load, position, then run (R341, R344). -/
def execute (fuel : Nat) (entry : Word) (program : List Byte) (s : State) : RunEnd :=
  match load entry program s with
  | .next t => runWindow fuel t
  | .fault r => .faulted s r
  | .refused r => .refused r

end Sys2Proof.Machine
end

