-- ==== Sys2Proof/Safety.lean ====
section
/-! DEFINITION. What the claims are stated in: the invariant of every state, a step that stops, and the states a machine
can reach. -/

namespace Sys2Proof.Machine

/-- The invariant of the machine: its memory is in canonical form. Every other field is in range by its type. -/
abbrev State.Inv (s : State) : Prop := s.mem.wf = true

/-- The outcome is a next state: neither a fault nor a refusal. -/
def completes (o : Result) : Bool :=
  match o with
  | .next _ => true
  | .fault _ => false
  | .refused _ => false

/-- A safe state: its step neither faults nor is refused. -/
def State.safe (s : State) : Bool := completes (step s)

/-- The states the machine can be in: right after creation, after a step, after the host writes a byte, and after the host
starts a run (70_reset_and_hazards.md R330, R344, R348, R341). The host acts only on a halted machine, PC outside the load
window: "during Execute the host does nothing" (R348) and only the dispatcher changes state during a run (10_state.md R47).
DESIGN CHOICE (log entry 8), unsafe: a run that a caller's bound (R346) has cut short with PC in the window counts as still
under way, so the host does not act on it. -/
inductive Reachable : State → Prop where
  | reset : Reachable State.reset
  | step {s t : State} : Reachable s → Machine.step s = .next t → Reachable t
  | seed {s : State} (addr : Word) (v : Byte) : Reachable s → s.halted = true → Reachable (s.seed addr v)
  | load {s t : State} (entry : Word) (program : List Byte) :
      Reachable s → s.halted = true → Machine.load entry program s = .next t → Reachable t

end Sys2Proof.Machine
end

