-- ==== Sys2Proof/Certificates/Slice0/Obligations.lean ====
section
/-! DEFINITION. The statements for the provers, each written from rules of spec/. Before them, the words they are written
in: plain record updates and the spec's own lists. -/

namespace Sys2Proof.Claims

open Sys2Proof Sys2Proof.Machine

/-- One row of 30_encoding.md R78. -/
structure OpcodeRow where
  opcode : Byte
  mnemonic : String
  mode : AddrMode
  length : Nat
  cycles : Nat
  pagePenalty : Bool

/-- Rows of 30_encoding.md R78. -/
def opcodeRows1 : List OpcodeRow :=
  [⟨0x61, "ADC", .indirectX, 2, 6, false⟩,
   ⟨0x65, "ADC", .zeroPage, 2, 3, false⟩,
   ⟨0x69, "ADC", .immediate, 2, 2, false⟩,
   ⟨0x6D, "ADC", .absolute, 3, 4, false⟩,
   ⟨0x71, "ADC", .indirectY, 2, 5, true⟩,
   ⟨0x75, "ADC", .zeroPageX, 2, 4, false⟩,
   ⟨0x79, "ADC", .absoluteY, 3, 4, true⟩,
   ⟨0x7D, "ADC", .absoluteX, 3, 4, true⟩,
   ⟨0x21, "AND", .indirectX, 2, 6, false⟩,
   ⟨0x25, "AND", .zeroPage, 2, 3, false⟩,
   ⟨0x29, "AND", .immediate, 2, 2, false⟩,
   ⟨0x2D, "AND", .absolute, 3, 4, false⟩,
   ⟨0x31, "AND", .indirectY, 2, 5, true⟩,
   ⟨0x35, "AND", .zeroPageX, 2, 4, false⟩,
   ⟨0x39, "AND", .absoluteY, 3, 4, true⟩,
   ⟨0x3D, "AND", .absoluteX, 3, 4, true⟩,
   ⟨0x06, "ASL", .zeroPage, 2, 5, false⟩,
   ⟨0x0A, "ASL", .accumulator, 1, 2, false⟩,
   ⟨0x0E, "ASL", .absolute, 3, 6, false⟩,
   ⟨0x16, "ASL", .zeroPageX, 2, 6, false⟩]

/-- Rows of 30_encoding.md R78. -/
def opcodeRows2 : List OpcodeRow :=
  [⟨0x1E, "ASL", .absoluteX, 3, 7, false⟩,
   ⟨0x90, "BCC", .relative, 2, 2, false⟩,
   ⟨0xB0, "BCS", .relative, 2, 2, false⟩,
   ⟨0xF0, "BEQ", .relative, 2, 2, false⟩,
   ⟨0x24, "BIT", .zeroPage, 2, 3, false⟩,
   ⟨0x2C, "BIT", .absolute, 3, 4, false⟩,
   ⟨0x30, "BMI", .relative, 2, 2, false⟩,
   ⟨0xD0, "BNE", .relative, 2, 2, false⟩,
   ⟨0x10, "BPL", .relative, 2, 2, false⟩,
   ⟨0x00, "BRK", .implied, 1, 7, false⟩,
   ⟨0x50, "BVC", .relative, 2, 2, false⟩,
   ⟨0x70, "BVS", .relative, 2, 2, false⟩,
   ⟨0x18, "CLC", .implied, 1, 2, false⟩,
   ⟨0xD8, "CLD", .implied, 1, 2, false⟩,
   ⟨0x58, "CLI", .implied, 1, 2, false⟩,
   ⟨0xB8, "CLV", .implied, 1, 2, false⟩,
   ⟨0xC1, "CMP", .indirectX, 2, 6, false⟩,
   ⟨0xC5, "CMP", .zeroPage, 2, 3, false⟩,
   ⟨0xC9, "CMP", .immediate, 2, 2, false⟩,
   ⟨0xCD, "CMP", .absolute, 3, 4, false⟩]

/-- Rows of 30_encoding.md R78. -/
def opcodeRows3 : List OpcodeRow :=
  [⟨0xD1, "CMP", .indirectY, 2, 5, true⟩,
   ⟨0xD5, "CMP", .zeroPageX, 2, 4, false⟩,
   ⟨0xD9, "CMP", .absoluteY, 3, 4, true⟩,
   ⟨0xDD, "CMP", .absoluteX, 3, 4, true⟩,
   ⟨0xE0, "CPX", .immediate, 2, 2, false⟩,
   ⟨0xE4, "CPX", .zeroPage, 2, 3, false⟩,
   ⟨0xEC, "CPX", .absolute, 3, 4, false⟩,
   ⟨0xC0, "CPY", .immediate, 2, 2, false⟩,
   ⟨0xC4, "CPY", .zeroPage, 2, 3, false⟩,
   ⟨0xCC, "CPY", .absolute, 3, 4, false⟩,
   ⟨0xC6, "DEC", .zeroPage, 2, 5, false⟩,
   ⟨0xCE, "DEC", .absolute, 3, 6, false⟩,
   ⟨0xD6, "DEC", .zeroPageX, 2, 6, false⟩,
   ⟨0xDE, "DEC", .absoluteX, 3, 7, false⟩,
   ⟨0xCA, "DEX", .implied, 1, 2, false⟩,
   ⟨0x88, "DEY", .implied, 1, 2, false⟩,
   ⟨0x41, "EOR", .indirectX, 2, 6, false⟩,
   ⟨0x45, "EOR", .zeroPage, 2, 3, false⟩,
   ⟨0x49, "EOR", .immediate, 2, 2, false⟩,
   ⟨0x4D, "EOR", .absolute, 3, 4, false⟩]

/-- Rows of 30_encoding.md R78. -/
def opcodeRows4 : List OpcodeRow :=
  [⟨0x51, "EOR", .indirectY, 2, 5, true⟩,
   ⟨0x55, "EOR", .zeroPageX, 2, 4, false⟩,
   ⟨0x59, "EOR", .absoluteY, 3, 4, true⟩,
   ⟨0x5D, "EOR", .absoluteX, 3, 4, true⟩,
   ⟨0xE6, "INC", .zeroPage, 2, 5, false⟩,
   ⟨0xEE, "INC", .absolute, 3, 6, false⟩,
   ⟨0xF6, "INC", .zeroPageX, 2, 6, false⟩,
   ⟨0xFE, "INC", .absoluteX, 3, 7, false⟩,
   ⟨0xE8, "INX", .implied, 1, 2, false⟩,
   ⟨0xC8, "INY", .implied, 1, 2, false⟩,
   ⟨0x4C, "JMP", .absolute, 3, 3, false⟩,
   ⟨0x6C, "JMP", .indirect, 3, 5, false⟩,
   ⟨0x20, "JSR", .absolute, 3, 6, false⟩,
   ⟨0xA1, "LDA", .indirectX, 2, 6, false⟩,
   ⟨0xA5, "LDA", .zeroPage, 2, 3, false⟩,
   ⟨0xA9, "LDA", .immediate, 2, 2, false⟩,
   ⟨0xAD, "LDA", .absolute, 3, 4, false⟩,
   ⟨0xB1, "LDA", .indirectY, 2, 5, true⟩,
   ⟨0xB5, "LDA", .zeroPageX, 2, 4, false⟩,
   ⟨0xB9, "LDA", .absoluteY, 3, 4, true⟩]

/-- Rows of 30_encoding.md R78. -/
def opcodeRows5 : List OpcodeRow :=
  [⟨0xBD, "LDA", .absoluteX, 3, 4, true⟩,
   ⟨0xA2, "LDX", .immediate, 2, 2, false⟩,
   ⟨0xA6, "LDX", .zeroPage, 2, 3, false⟩,
   ⟨0xAE, "LDX", .absolute, 3, 4, false⟩,
   ⟨0xB6, "LDX", .zeroPageY, 2, 4, false⟩,
   ⟨0xBE, "LDX", .absoluteY, 3, 4, true⟩,
   ⟨0xA0, "LDY", .immediate, 2, 2, false⟩,
   ⟨0xA4, "LDY", .zeroPage, 2, 3, false⟩,
   ⟨0xAC, "LDY", .absolute, 3, 4, false⟩,
   ⟨0xB4, "LDY", .zeroPageX, 2, 4, false⟩,
   ⟨0xBC, "LDY", .absoluteX, 3, 4, true⟩,
   ⟨0x46, "LSR", .zeroPage, 2, 5, false⟩,
   ⟨0x4A, "LSR", .accumulator, 1, 2, false⟩,
   ⟨0x4E, "LSR", .absolute, 3, 6, false⟩,
   ⟨0x56, "LSR", .zeroPageX, 2, 6, false⟩,
   ⟨0x5E, "LSR", .absoluteX, 3, 7, false⟩,
   ⟨0xEA, "NOP", .implied, 1, 2, false⟩,
   ⟨0x01, "ORA", .indirectX, 2, 6, false⟩,
   ⟨0x05, "ORA", .zeroPage, 2, 3, false⟩,
   ⟨0x09, "ORA", .immediate, 2, 2, false⟩]

/-- Rows of 30_encoding.md R78. -/
def opcodeRows6 : List OpcodeRow :=
  [⟨0x0D, "ORA", .absolute, 3, 4, false⟩,
   ⟨0x11, "ORA", .indirectY, 2, 5, true⟩,
   ⟨0x15, "ORA", .zeroPageX, 2, 4, false⟩,
   ⟨0x19, "ORA", .absoluteY, 3, 4, true⟩,
   ⟨0x1D, "ORA", .absoluteX, 3, 4, true⟩,
   ⟨0x48, "PHA", .implied, 1, 3, false⟩,
   ⟨0x08, "PHP", .implied, 1, 3, false⟩,
   ⟨0x68, "PLA", .implied, 1, 4, false⟩,
   ⟨0x28, "PLP", .implied, 1, 4, false⟩,
   ⟨0x26, "ROL", .zeroPage, 2, 5, false⟩,
   ⟨0x2A, "ROL", .accumulator, 1, 2, false⟩,
   ⟨0x2E, "ROL", .absolute, 3, 6, false⟩,
   ⟨0x36, "ROL", .zeroPageX, 2, 6, false⟩,
   ⟨0x3E, "ROL", .absoluteX, 3, 7, false⟩,
   ⟨0x66, "ROR", .zeroPage, 2, 5, false⟩,
   ⟨0x6A, "ROR", .accumulator, 1, 2, false⟩,
   ⟨0x6E, "ROR", .absolute, 3, 6, false⟩,
   ⟨0x76, "ROR", .zeroPageX, 2, 6, false⟩,
   ⟨0x7E, "ROR", .absoluteX, 3, 7, false⟩,
   ⟨0x40, "RTI", .implied, 1, 6, false⟩]

/-- Rows of 30_encoding.md R78. -/
def opcodeRows7 : List OpcodeRow :=
  [⟨0x60, "RTS", .implied, 1, 6, false⟩,
   ⟨0xE1, "SBC", .indirectX, 2, 6, false⟩,
   ⟨0xE5, "SBC", .zeroPage, 2, 3, false⟩,
   ⟨0xE9, "SBC", .immediate, 2, 2, false⟩,
   ⟨0xED, "SBC", .absolute, 3, 4, false⟩,
   ⟨0xF1, "SBC", .indirectY, 2, 5, true⟩,
   ⟨0xF5, "SBC", .zeroPageX, 2, 4, false⟩,
   ⟨0xF9, "SBC", .absoluteY, 3, 4, true⟩,
   ⟨0xFD, "SBC", .absoluteX, 3, 4, true⟩,
   ⟨0x38, "SEC", .implied, 1, 2, false⟩,
   ⟨0xF8, "SED", .implied, 1, 2, false⟩,
   ⟨0x78, "SEI", .implied, 1, 2, false⟩,
   ⟨0x81, "STA", .indirectX, 2, 6, false⟩,
   ⟨0x85, "STA", .zeroPage, 2, 3, false⟩,
   ⟨0x8D, "STA", .absolute, 3, 4, false⟩,
   ⟨0x91, "STA", .indirectY, 2, 6, false⟩,
   ⟨0x95, "STA", .zeroPageX, 2, 4, false⟩,
   ⟨0x99, "STA", .absoluteY, 3, 5, false⟩,
   ⟨0x9D, "STA", .absoluteX, 3, 5, false⟩,
   ⟨0x86, "STX", .zeroPage, 2, 3, false⟩]

/-- Rows of 30_encoding.md R78. -/
def opcodeRows8 : List OpcodeRow :=
  [⟨0x8E, "STX", .absolute, 3, 4, false⟩,
   ⟨0x96, "STX", .zeroPageY, 2, 4, false⟩,
   ⟨0x84, "STY", .zeroPage, 2, 3, false⟩,
   ⟨0x8C, "STY", .absolute, 3, 4, false⟩,
   ⟨0x94, "STY", .zeroPageX, 2, 4, false⟩,
   ⟨0xAA, "TAX", .implied, 1, 2, false⟩,
   ⟨0xA8, "TAY", .implied, 1, 2, false⟩,
   ⟨0xBA, "TSX", .implied, 1, 2, false⟩,
   ⟨0x8A, "TXA", .implied, 1, 2, false⟩,
   ⟨0x9A, "TXS", .implied, 1, 2, false⟩,
   ⟨0x98, "TYA", .implied, 1, 2, false⟩]

/-- The 151 rows of 30_encoding.md R78. -/
def opcodeRows : List OpcodeRow :=
  opcodeRows1 ++ opcodeRows2 ++ opcodeRows3 ++ opcodeRows4 ++ opcodeRows5 ++ opcodeRows6 ++ opcodeRows7 ++ opcodeRows8

/-- The Encoding line of R130: the eight opcodes of an instruction that takes the modes of LDA. -/
def aluEncoding (mk : ReadOperand → Instr) (imm zp zpx abs abx aby izx izy : Byte) : Prop :=
  ∀ b1 b2 : Byte,
    decode imm b1 b2 = mk (.immediate b1) ∧
    decode zp b1 b2 = mk (.memory (.zeroPage b1)) ∧
    decode zpx b1 b2 = mk (.memory (.zeroPageX b1)) ∧
    decode abs b1 b2 = mk (.memory (.absolute (word b2 b1))) ∧
    decode abx b1 b2 = mk (.memory (.absoluteX (word b2 b1))) ∧
    decode aby b1 b2 = mk (.memory (.absoluteY (word b2 b1))) ∧
    decode izx b1 b2 = mk (.memory (.indirectX b1)) ∧
    decode izy b1 b2 = mk (.memory (.indirectY b1))

/-- The Encoding line of R160: the four opcodes of a read-modify-write instruction on memory. -/
def rmwEncoding (mk : RmwMode → Instr) (zp zpx abs abx : Byte) : Prop :=
  ∀ b1 b2 : Byte,
    decode zp b1 b2 = mk (.zeroPage b1) ∧
    decode zpx b1 b2 = mk (.zeroPageX b1) ∧
    decode abs b1 b2 = mk (.absolute (word b2 b1)) ∧
    decode abx b1 b2 = mk (.absoluteX (word b2 b1))

/-- The Encoding line of R155: the five opcodes of a shift or rotate. -/
def shiftEncoding (mk : ShiftOperand → Instr) (acc zp zpx abs abx : Byte) : Prop :=
  (∀ b1 b2 : Byte, decode acc b1 b2 = mk .accumulator) ∧ rmwEncoding (fun m => mk (.memory m)) zp zpx abs abx

/-- The Encoding line of R191: the three opcodes of CPX or CPY. -/
def compareIndexEncoding (mk : ReadOperand → Instr) (imm zp abs : Byte) : Prop :=
  ∀ b1 b2 : Byte,
    decode imm b1 b2 = mk (.immediate b1) ∧
    decode zp b1 b2 = mk (.memory (.zeroPage b1)) ∧
    decode abs b1 b2 = mk (.memory (.absolute (word b2 b1)))

/-- The opcode of an instruction without operand bytes. -/
def oneByte (op : Byte) (i : Instr) : Prop := ∀ b1 b2 : Byte, decode op b1 b2 = i

/-- `setNZ(v)` as a record (10_state.md R33). -/
def nz (p : Flags) (v : Byte) : Flags := { p with z := decide (v = 0), n := v.getLsbD 7 }

/-- `t`, but with the PC and Cycles that a read instruction with operand `o` leaves when it starts in `s`: PC past the
instruction, Cycles up by the base cost and, where `pays`, by 1 if a page was crossed. -/
def readDone (pays : Bool) (o : ReadOperand) (s t : State) : State :=
  { t with
    pc := s.pc + BitVec.ofNat 16 (1 + o.mode.operandBytes)
    cycles := s.cycles + BitVec.ofNat 64 (o.readCycles + if pays && o.pageCrossed s then 1 else 0) }

/-- `t`, but with the PC and Cycles that a store to `m` leaves when it starts in `s`: base cost only. -/
def storeDone (m : MemMode) (s t : State) : State :=
  { t with
    pc := s.pc + BitVec.ofNat 16 (1 + m.mode.operandBytes)
    cycles := s.cycles + BitVec.ofNat 64 m.storeCycles }

/-- `t`, but with the PC and Cycles that a read-modify-write of `m` leaves when it starts in `s`: base cost only. -/
def rmwDone (m : RmwMode) (s t : State) : State :=
  { t with
    pc := s.pc + BitVec.ofNat 16 (1 + m.toMem.mode.operandBytes)
    cycles := s.cycles + BitVec.ofNat 64 m.rmwCycles }

/-- `t`, but with the PC and Cycles that an instruction of one byte and `n` cycles leaves when it starts in `s`. -/
def oneByteDone (n : Nat) (s t : State) : State :=
  { t with pc := s.pc + 1, cycles := s.cycles + BitVec.ofNat 64 n }

/-- The stack byte `k` above SP: at 0x0100 + (SP + k) mod 256. -/
def stackByte (s : State) (k : Byte) : Byte := s.readByte (BitVec.ofNat 16 (0x0100 + (s.sp + k).toNat))

/-- The state a branch at `s` leaves (45_control.md R230, 70_reset_and_hazards.md R362): 2, 3 or 4 cycles. -/
def branchResult (s : State) (taken : Bool) (b : Byte) : State :=
  let next := s.pc + 2
  let target := next + b.signExtend 16
  if taken then
    { s with pc := target, cycles := s.cycles + if target.toNat / 256 = next.toNat / 256 then 3 else 4 }
  else { s with pc := next, cycles := s.cycles + 2 }

/-- The value of a byte of two decimal digits. -/
def decimalValue (b : Byte) : Nat := b.toNat / 16 * 10 + b.toNat % 16

/-- Both nibbles are decimal digits. -/
def isBcd (b : Byte) : Prop := b.toNat / 16 ≤ 9 ∧ b.toNat % 16 ≤ 9

/-- The BCD encoding of a number below 100. -/
def bcd (n : Nat) : Byte := BitVec.ofNat 8 (n / 10 * 16 + n % 10)

/-- The addresses an instruction stores to, computed in the state it starts in, with the address functions its meaning
uses; empty for every form that stores nothing. -/
def storedAt (i : Instr) (s : State) : List Word :=
  match i with
  | .sta m | .stx m | .sty m => [m.ea s]
  | .asl (.memory m) | .lsr (.memory m) | .rol (.memory m) | .ror (.memory m) => [m.ea s]
  | .inc m | .dec m => [m.ea s]
  | .pha | .php => [stackAddr s.sp]
  | .jsr _ => [stackAddr s.sp, stackAddr (s.sp - 1)]
  | _ => []

/-- The instruction sets PC by its own rule (10_state.md R28): a taken branch, JMP, JSR, RTS or RTI. -/
def setsPc (i : Instr) (s : State) : Bool :=
  match i with
  | .bpl _ => !s.p.n
  | .bmi _ => s.p.n
  | .bvc _ => !s.p.v
  | .bvs _ => s.p.v
  | .bcc _ => !s.p.c
  | .bcs _ => s.p.c
  | .bne _ => !s.p.z
  | .beq _ => s.p.z
  | .jmp _ | .jsr _ | .rts | .rti => true
  | _ => false

/-- `n` rounds of the loop of 70_reset_and_hazards.md R344 lead from `s` to `t`. -/
def rounds : Nat → State → State → Prop
  | 0, s, t => s = t
  | n + 1, s, t => s.inWindow = true ∧ ∃ u, step s = .next u ∧ rounds n u t

/-- The memory is canonical, the parameters are the defaults of 00_scope.md R11, and the load window is no longer than
MAX_PROGRAM_LENGTH allows. -/
def defaultsInvariant (s : State) : Prop :=
  s.Inv ∧ s.cfg = Config.defaults ∧ s.window.length ≤ 65536

/-- The instruction executed `n` times in a row, with no other between. -/
def repeated : Nat → Instr → State → Result
  | 0, _, s => .next s
  | n + 1, i, s =>
    match exec i s with
    | .next t => repeated n i t
    | .fault r => .fault r
    | .refused r => .refused r

/-- `s` with the flag D set to `v`. -/
def withD (s : State) (v : Bool) : State := { s with p := { s.p with d := v } }

/-- `s` with the flag I set to `v`. -/
def withI (s : State) (v : Bool) : State := { s with p := { s.p with i := v } }

/-- `s` with the flag B set to `v`. -/
def withB (s : State) (v : Bool) : State := { s with p := { s.p with b := v } }

end Sys2Proof.Claims

open Sys2Proof Sys2Proof.Machine Sys2Proof.Claims

/-! ### Creation, invariants and the whole machine -/

/-- R46: "A core instance is created with every piece of state zero except SP". (Memory's zeros are decision D18 of the
spec, part of the rule.) -/
def Obligations.ResetState : Prop :=
  State.reset.a = 0x00 ∧ State.reset.x = 0x00 ∧ State.reset.y = 0x00 ∧ State.reset.sp = 0xFF ∧
  State.reset.pc = 0x0000 ∧
  State.reset.p.c = false ∧ State.reset.p.z = false ∧ State.reset.p.i = false ∧ State.reset.p.d = false ∧
  State.reset.p.b = false ∧ State.reset.p.v = false ∧ State.reset.p.n = false ∧
  State.reset.p.pack = 0x20 ∧ State.reset.cycles = 0 ∧
  ∀ addr : Word, State.reset.readByte addr = 0x00

/-- The memory right after creation is in canonical form (the model's form of 20_memory.md R50, R52). -/
def Obligations.ResetMemoryCanonical : Prop := State.reset.Inv

/-- Every step, from every state, keeps the memory in canonical form: addresses below 65536, strictly rising, no byte
0x00 listed (the model's form of 20_memory.md R50, R52). -/
def Obligations.StepKeepsMemoryCanonical : Prop :=
  ∀ s t : State, s.Inv → step s = .next t → t.Inv

/-- The MODEL's choices of log entries 1 to 3 and 8 throughout: `defaultsInvariant` holds right after creation, host writes
and loads keep it, and in every state that meets it the next step answers a next state, which meets it; so it holds, and
the next step answers, in every state the machine can reach. -/
def Obligations.ReachableStatesKeepInvariant : Prop :=
  defaultsInvariant State.reset ∧
  (∀ s : State, defaultsInvariant s → ∃ t, step s = .next t ∧ defaultsInvariant t) ∧
  (∀ (s : State) (addr : Word) (v : Byte), defaultsInvariant s → defaultsInvariant (s.seed addr v)) ∧
  (∀ (s t : State) (entry : Word) (program : List Byte), defaultsInvariant s → load entry program s = .next t →
    defaultsInvariant t) ∧
  (∀ s : State, Reachable s → defaultsInvariant s ∧ ∃ t, step s = .next t)

/-- 10_state.md R45: "no instruction reads or writes" the load window. The same of the parameters is the MODEL's choice
(log entry 1). -/
def Obligations.StepKeepsWindowAndParameters : Prop :=
  (∀ (i : Instr) (s t : State), exec i s = .next t → t.window = s.window ∧ t.cfg = s.cfg) ∧
  (∀ s t : State, step s = .next t → t.window = s.window ∧ t.cfg = s.cfg) ∧
  (∀ (i : Instr) (s t : State) (w : Window),
    exec i s = .next t → exec i { s with window := w } = .next { t with window := w })

/-- 60_exceptions.md R300, R304: an instruction answers a next state, but for an undefined opcode under
`ILLEGAL_OPCODE_POLICY = fault`. -/
def Obligations.OnlyIllegalOpcodeFaults : Prop :=
  ∀ (i : Instr) (s : State),
    (∃ t, exec i s = .next t) ∨
    (∃ op, i = .undefined op ∧ s.cfg.illegalOpcodePolicy = .fault ∧ exec i s = .fault (.illegalOpcode op s.pc))

/-! ### Encoding -/

/-- Decode after encode, for every well-formed instruction, whatever bytes follow it. -/
def Obligations.DecodeOfEncode : Prop :=
  ∀ (i : Instr) (rest : List Byte), i.wellFormed = true →
    ∃ bytes, encode i = some bytes ∧ decodeBytes (bytes ++ rest) = .ok (i, rest)

/-- Encode after decode, for every opcode byte and every two bytes after it: the decoded instruction is well-formed, its
encoding is the bytes it consumed, and its length hangs on the opcode byte alone (30_encoding.md R73, R74). -/
def Obligations.EncodeOfDecode : Prop :=
  ∀ op b1 b2 : Byte,
    (decode op b1 b2).wellFormed = true ∧
    encode (decode op b1 b2) = some ([op, b1, b2].take (decode op b1 b2).length) ∧
    (decode op b1 b2).length = opcodeLength op

/-- Words written out from the spec's examples (30_encoding.md R82; 40_addressing.md R102, R106). -/
def Obligations.SampleWordsDecode : Prop :=
  decodeBytes [0xA9, 0x42] = .ok (.lda (.immediate 0x42), []) ∧
  decodeBytes [0xA5, 0x10] = .ok (.lda (.memory (.zeroPage 0x10)), []) ∧
  decodeBytes [0xB6, 0x10] = .ok (.ldx (.memory (.zeroPageY 0x10)), []) ∧
  decodeBytes [0xBD, 0x34, 0x12] = .ok (.lda (.memory (.absoluteX 0x1234)), []) ∧
  decodeBytes [0x6C, 0xFF, 0x15] = .ok (.jmp (.indirect 0x15FF), []) ∧
  decodeBytes [0xA1, 0x20] = .ok (.lda (.memory (.indirectX 0x20)), []) ∧
  decodeBytes [0x0A] = .ok (.asl .accumulator, []) ∧
  decodeBytes [0xD0, 0xFC] = .ok (.bne 0xFC, []) ∧
  decodeBytes [0x20, 0x0B, 0x06] = .ok (.jsr 0x060B, []) ∧
  decodeBytes [0x48] = .ok (.pha, []) ∧
  decodeBytes [0xFF, 0x01] = .ok (.undefined 0xFF, [0x01]) ∧
  decodeBytes [0xAD, 0x34] = .error (.truncated 0xAD)

/-- R78, row by row: mnemonic, mode, length, base cycles and the `+pc` mark of each of the 151 defined opcodes. -/
def Obligations.OpcodeMap : Prop :=
  opcodeRows.length = 151 ∧
  ∀ row ∈ opcodeRows, ∀ b1 b2 : Byte,
    (decode row.opcode b1 b2).mnemonic = row.mnemonic ∧
    (decode row.opcode b1 b2).mode = row.mode ∧
    (decode row.opcode b1 b2).length = row.length ∧
    (decode row.opcode b1 b2).baseCycles = row.cycles ∧
    (decode row.opcode b1 b2).pagePenalised = row.pagePenalty

/-- R80, R280, R281: the 105 other bytes are the undefined opcodes; under `nop1` each is a 1-byte, 2-cycle instruction
with no other effect, under `fault` each stops with IllegalOpcode(op, PC0) and ends the run in the state before its fetch. (The policy and its default are decision D5
of the spec.) -/
def Obligations.UndefinedOpcodes : Prop :=
  undefinedOpcodes.length = 105 ∧
  (∀ op b1 b2 : Byte, (op ∈ undefinedOpcodes ↔ decode op b1 b2 = .undefined op)) ∧
  (∀ op : Byte, (op ∈ undefinedOpcodes ↔ ∀ row ∈ opcodeRows, row.opcode ≠ op)) ∧
  State.reset.cfg.illegalOpcodePolicy = .nop1 ∧
  (∀ (op : Byte) (s : State), s.cfg.illegalOpcodePolicy = .nop1 →
    exec (.undefined op) s = .next (oneByteDone 2 s s)) ∧
  (∀ (op : Byte) (s : State), s.cfg.illegalOpcodePolicy = .fault →
    exec (.undefined op) s = .fault (.illegalOpcode op s.pc)) ∧
  (∀ (op : Byte) (s : State) (fuel : Nat), s.cfg.illegalOpcodePolicy = .fault → s.inWindow = true →
    s.fetch = .undefined op → runWindow (fuel + 1) s = .faulted s (.illegalOpcode op s.pc))

/-! ### The step and the execution loop -/

/-- In the load window, a step is `exec` of the instruction the bytes at PC decode to, and nothing is added around it
(70_reset_and_hazards.md R342). -/
def Obligations.StepRunsDecodedInstruction : Prop :=
  ∀ (s : State) (i : Instr) (rest : List Byte), s.inWindow = true →
    decodeBytes [s.readByte s.pc, s.readByte (s.pc + 1), s.readByte (s.pc + 2)] = .ok (i, rest) →
    i.wellFormed = true ∧ step s = exec i s

/-- The window test of R343, and what a step does after the halt: it answers the final state again, the MODEL's choice
(log entry 3). -/
def Obligations.HaltedStepKeepsState : Prop :=
  (∀ s : State, s.inWindow = true ↔
    (s.window.entry.toNat ≤ s.pc.toNat ∧ s.pc.toNat < s.window.entry.toNat + s.window.length)) ∧
  (∀ s : State, s.halted = true → step s = .next s) ∧
  (∀ (fuel : Nat) (s : State), s.halted = true → runWindow fuel s = .halted s)

/-- The MODEL's way to bring one instruction before the next step (log entry 4): it is loaded at PC as a program of three
bytes, and the next step runs exactly it. -/
def Obligations.LoadedInstructionRunsNext : Prop :=
  ∀ (s : State) (nbits w : Nat) (i : Instr), decodeTableWord nbits w = some i →
    step (s.withFetchWord nbits w) = exec i (s.withFetchWord nbits w)

/-- R341: Execute copies the program bytes to memory from entry on, modulo 65536 (so of two bytes of a long program that
meet at one address the later stays), sets PC to entry, and changes no other byte and no other register (decisions D13,
D14 of the spec). -/
def Obligations.LoadPositionsProgram : Prop :=
  ∀ (entry : Word) (program : List Byte) (s : State), program.length ≤ s.cfg.maxProgramLength →
    ∃ t, load entry program s = .next t ∧
      t.pc = entry ∧ t.window = { entry := entry, length := program.length } ∧
      t.a = s.a ∧ t.x = s.x ∧ t.y = s.y ∧ t.sp = s.sp ∧ t.p = s.p ∧ t.cycles = s.cycles ∧ t.cfg = s.cfg ∧
      (∀ (k : Nat) (h : k < program.length),
        (∀ k' < program.length, k < k' → entry + BitVec.ofNat 16 k' ≠ entry + BitVec.ofNat 16 k) →
        t.readByte (entry + BitVec.ofNat 16 k) = program[k]) ∧
      (∀ addr : Word, (∀ k < program.length, addr ≠ entry + BitVec.ofNat 16 k) → t.readByte addr = s.readByte addr)

/-- R347: an empty program loads nothing and halts before any instruction; one longer than `MAX_PROGRAM_LENGTH` is
refused. -/
def Obligations.DegenerateLoads : Prop :=
  State.reset.cfg.maxProgramLength = 65536 ∧
  (∀ (entry : Word) (s : State) (fuel : Nat),
    execute fuel entry [] s = .halted { s with pc := entry, window := { entry := entry, length := 0 } }) ∧
  (∀ (entry : Word) (program : List Byte) (s : State) (fuel : Nat), program.length > s.cfg.maxProgramLength →
    execute fuel entry program s = .refused (.programTooLong program.length))

/-- R349: a run ends exactly when, at an instruction boundary, PC is outside the window or a fault has been raised, and its
final state is the state at that boundary; a run the caller's bound (R346) cuts short has none (60_exceptions.md R315). R344:
the loop steps once per round while PC is in the window. R345: the end is one; a larger bound gives the same. Execute
runs the loop from the positioned state (R341). -/
def Obligations.RunHasOneEnd : Prop :=
  (∀ (fuel : Nat) (s t : State), s.inWindow = true → step s = .next t → runWindow (fuel + 1) s = runWindow fuel t) ∧
  (∀ (fuel : Nat) (s t : State), runWindow fuel s = .halted t ↔ ∃ n ≤ fuel, rounds n s t ∧ t.inWindow = false) ∧
  (∀ (fuel : Nat) (s t : State) (r : Fault), runWindow fuel s = .faulted t r ↔
    ∃ n < fuel, rounds n s t ∧ t.inWindow = true ∧ step t = .fault r) ∧
  (∀ (fuel : Nat) (s t : State), runWindow fuel s = .cutShort t ↔ rounds fuel s t ∧ t.inWindow = true) ∧
  (∀ (fuel k : Nat) (s t : State), runWindow fuel s = .halted t → runWindow (fuel + k) s = .halted t) ∧
  (∀ (fuel k : Nat) (s t : State) (r : Fault), runWindow fuel s = .faulted t r →
    runWindow (fuel + k) s = .faulted t r) ∧
  (∀ (t : State) (r : Fault), (RunEnd.halted t).finalState = some t ∧ (RunEnd.faulted t r).finalState = some t ∧
    (RunEnd.cutShort t).finalState = none) ∧
  (∀ (fuel : Nat) (entry : Word) (program : List Byte) (s : State), program.length ≤ s.cfg.maxProgramLength →
    execute fuel entry program s = runWindow fuel (s.position entry program))

/-! ### Memory, stack and status register -/

/-- R52: MemRead and MemWrite; the loader and the host's seeding write by the same MemWrite. -/
def Obligations.MemoryReadWrite : Prop :=
  (∀ (s : State) (a : Word) (v : Byte), (s.writeByte a v).readByte a = v) ∧
  (∀ (s : State) (a a' : Word) (v : Byte), a' ≠ a → (s.writeByte a v).readByte a' = s.readByte a') ∧
  (∀ (s : State) (a : Word) (v : Byte), ∃ m, s.writeByte a v = { s with mem := m }) ∧
  (∀ (s : State) (a : Word) (v : Byte), s.seed a v = s.writeByte a v) ∧
  (∀ (s : State) (a : Word) (v : Byte) (rest : List Byte),
    s.storeBytes a (v :: rest) = (s.writeByte a v).storeBytes (a + 1) rest) ∧
  (∀ a : Word, State.reset.readByte a = 0x00)

/-- R57, R58: Push and Pull, in page 1, with the 8-bit wrap of SP. -/
def Obligations.StackPrimitives : Prop :=
  (∀ (s : State) (v : Byte),
    s.push v = { s with mem := s.mem.write (0x0100 + s.sp.toNat) v, sp := BitVec.ofNat 8 ((s.sp.toNat + 255) % 256) }) ∧
  (∀ s : State, s.pulled = { s with sp := BitVec.ofNat 8 ((s.sp.toNat + 1) % 256) }) ∧
  (∀ s : State, s.pullByte = s.readByte (BitVec.ofNat 16 (0x0100 + (s.sp.toNat + 1) % 256)))

/-- R30 and R31, and what follows from them (R32, marked derived by the spec). -/
def Obligations.PackUnpackRoundTrip : Prop :=
  (∀ p : Flags, p.pack.getLsbD 7 = p.n ∧ p.pack.getLsbD 6 = p.v ∧ p.pack.getLsbD 5 = true ∧ p.pack.getLsbD 4 = p.b ∧
    p.pack.getLsbD 3 = p.d ∧ p.pack.getLsbD 2 = p.i ∧ p.pack.getLsbD 1 = p.z ∧ p.pack.getLsbD 0 = p.c) ∧
  (∀ p : Flags, Flags.unpack p.pack = p) ∧
  (∀ b : Byte, (Flags.unpack b).pack = b ||| 0x20)

/-- R33 and R188: `setNZ(v)` writes Z and N; `Compare(r, m)` writes C, Z and N; neither writes another flag. -/
def Obligations.FlagRules : Prop :=
  (∀ (p : Flags) (v : Byte), p.setNZ v = { p with z := decide (v = 0), n := decide (128 ≤ v.toNat) }) ∧
  (∀ (p : Flags) (r m : Byte), p.compare r m =
    { p with c := decide (m.toNat ≤ r.toNat), z := decide ((r.toNat + 256 - m.toNat) % 256 = 0),
             n := decide (128 ≤ (r.toNat + 256 - m.toNat) % 256) })

/-! ### Addressing modes -/

/-- R103 to R107: the effective addresses that need no pointer; R154, R160: a read-modify-write operand has the address of
its mode; R100, R102: the operand of a read instruction is the immediate byte, or the byte at the effective address. -/
def Obligations.DirectAddresses : Prop :=
  ∀ (s : State) (b : Byte) (w : Word),
    ((MemMode.zeroPage b).ea s).toNat = b.toNat ∧
    ((MemMode.zeroPageX b).ea s).toNat = (b.toNat + s.x.toNat) % 256 ∧
    ((MemMode.zeroPageY b).ea s).toNat = (b.toNat + s.y.toNat) % 256 ∧
    (MemMode.absolute w).ea s = w ∧
    ((MemMode.absoluteX w).ea s).toNat = (w.toNat + s.x.toNat) % 65536 ∧
    ((MemMode.absoluteY w).ea s).toNat = (w.toNat + s.y.toNat) % 65536 ∧
    ((RmwMode.zeroPage b).ea s).toNat = b.toNat ∧
    ((RmwMode.zeroPageX b).ea s).toNat = (b.toNat + s.x.toNat) % 256 ∧
    (RmwMode.absolute w).ea s = w ∧
    ((RmwMode.absoluteX w).ea s).toNat = (w.toNat + s.x.toNat) % 65536 ∧
    (ReadOperand.immediate b).value s = b ∧
    (∀ m : MemMode, (ReadOperand.memory m).value s = s.readByte (m.ea s))

/-- R108 to R110: the addresses read through a pointer, each with its own wrap, for both settings of
`INDY_POINTER_WRAP`. -/
def Obligations.PointerAddresses : Prop :=
  ∀ (s : State) (b : Byte) (w : Word),
    let byteAt := fun n : Nat => (s.readByte (BitVec.ofNat 16 n)).toNat
    ((JumpOperand.indirect w).target s).toNat =
      byteAt (w.toNat / 256 * 256 + (w.toNat % 256 + 1) % 256) * 256 + byteAt w.toNat ∧
    ((MemMode.indirectX b).ea s).toNat =
      byteAt ((b.toNat + s.x.toNat + 1) % 256) * 256 + byteAt ((b.toNat + s.x.toNat) % 256) ∧
    (s.cfg.indyPointerWrap = .zeroPage →
      ((MemMode.indirectY b).ea s).toNat =
        (byteAt ((b.toNat + 1) % 256) * 256 + byteAt b.toNat + s.y.toNat) % 65536) ∧
    (s.cfg.indyPointerWrap = .linear →
      ((MemMode.indirectY b).ea s).toNat =
        (byteAt (b.toNat + 1) * 256 + byteAt b.toNat + s.y.toNat) % 65536)

/-- R113: only AbsoluteX, AbsoluteY and IndirectY report a page crossing, exactly when the high byte changes; with an
index below 256 that is when the low byte of the base and the index sum to 256 or more. A read operand reports what its
mode does; Immediate reports none (R100, R102). -/
def Obligations.PageCrossedModes : Prop :=
  (∀ (m : MemMode) (s : State), m.pageCrossed s = true →
    m.mode = .absoluteX ∨ m.mode = .absoluteY ∨ m.mode = .indirectY) ∧
  (∀ (s : State) (w : Word),
    ((MemMode.absoluteX w).pageCrossed s = true ↔ w.toNat % 256 + s.x.toNat ≥ 256) ∧
    ((MemMode.absoluteY w).pageCrossed s = true ↔ w.toNat % 256 + s.y.toNat ≥ 256)) ∧
  (∀ (s : State) (b : Byte), ((MemMode.indirectY b).pageCrossed s = true ↔
    (s.readByte (BitVec.ofNat 16 b.toNat)).toNat + s.y.toNat ≥ 256)) ∧
  (∀ (s : State) (v : Byte), (ReadOperand.immediate v).pageCrossed s = false) ∧
  (∀ (s : State) (m : MemMode), (ReadOperand.memory m).pageCrossed s = m.pageCrossed s)

/-- R112 and R15: a branch target is PCnext plus the signed offset, modulo 65536. -/
def Obligations.RelativeTarget : Prop :=
  ∀ (pcNext : Word) (b : Byte),
    ((branchTarget pcNext b).toNat : Int) =
      ((pcNext.toNat : Int) + if b.toNat < 128 then (b.toNat : Int) else (b.toNat : Int) - 256) % 65536

/-! ### The ALU -/

/-- R180: `AddBinary`, with the equivalent form of its V. -/
def Obligations.BinaryAddition : Prop :=
  ∀ (a m : Byte) (c : Bool),
    (addBinary a m c).result.toNat = (a.toNat + m.toNat + c.toNat) % 256 ∧
    ((addBinary a m c).carry = true ↔ a.toNat + m.toNat + c.toNat > 255) ∧
    ((addBinary a m c).overflow = true ↔
      a.getLsbD 7 = m.getLsbD 7 ∧ (addBinary a m c).result.getLsbD 7 ≠ a.getLsbD 7) ∧
    ((addBinary a m c).overflow = true ↔
      (a ^^^ (addBinary a m c).result) &&& (m ^^^ (addBinary a m c).result) &&& 0x80 ≠ 0)

/-- R182, whose consequences ("Hence") the spec marks as derived: `SubBinary` subtracts with borrow. -/
def Obligations.BinarySubtraction : Prop :=
  ∀ (a m : Byte) (c : Bool),
    subBinary a m c = addBinary a (~~~m) c ∧
    ((subBinary a m c).result.toNat : Int) = ((a.toNat : Int) - m.toNat - (1 - c.toNat)) % 256 ∧
    ((subBinary a m c).carry = true ↔ (a.toNat : Int) - m.toNat - (1 - c.toNat) ≥ 0) ∧
    ((subBinary a m c).overflow = true ↔
      a.getLsbD 7 ≠ m.getLsbD 7 ∧ (subBinary a m c).result.getLsbD 7 ≠ a.getLsbD 7)

/-- What V means (R187: "two's-complement signed for V"): the exact signed sum or difference is out of -128..127. -/
def Obligations.OverflowIsSignedOverflow : Prop :=
  ∀ (a m : Byte) (c : Bool),
    ((addBinary a m c).overflow = true ↔
      a.toInt + m.toInt + c.toNat < -128 ∨ a.toInt + m.toInt + c.toNat > 127) ∧
    ((subBinary a m c).overflow = true ↔
      a.toInt - m.toInt - (1 - c.toNat) < -128 ∨ a.toInt - m.toInt - (1 - c.toNat) > 127)

/-- R181: the nibble algorithm in the spec's own operators, and the BCD sum it gives (the spec marks the latter as
derived; the algorithm for non-BCD nibbles is decision D7 of the spec). -/
def Obligations.DecimalAddition : Prop :=
  (∀ (a m : Byte) (c : Bool),
    let lo := (a &&& 0x0F).toNat + (m &&& 0x0F).toNat + c.toNat
    let lo := if lo > 9 then lo + 6 else lo
    let hc := if lo > 0x0F then 1 else 0
    let hi := (a >>> 4).toNat + (m >>> 4).toNat + hc
    let hi' := if hi > 9 then hi + 6 else hi
    addDecimal a m c =
      { result := BitVec.ofNat 8 (((hi' &&& 0x0F) <<< 4) ||| (lo &&& 0x0F)), carry := decide (hi > 9) }) ∧
  (∀ (a m : Byte) (c : Bool), isBcd a → isBcd m →
    (addDecimal a m c).result = bcd ((decimalValue a + decimalValue m + c.toNat) % 100) ∧
    ((addDecimal a m c).carry = true ↔ decimalValue a + decimalValue m + c.toNat > 99))

/-- R183: the nibble algorithm in the spec's own operators, for every byte pair (decision D8 of the spec); its carry is that
of binary subtraction on every input, and its result on BCD inputs is the BCD difference (the spec marks these two as
derived). -/
def Obligations.DecimalSubtraction : Prop :=
  (∀ (a m : Byte) (c : Bool),
    let lo : Int := (a &&& 0x0F).toNat - (m &&& 0x0F).toNat - (1 - c.toNat)
    let hb : Int := if lo < 0 then 1 else 0
    let lo := if lo < 0 then lo - 6 else lo
    let hi : Int := (a >>> 4).toNat - (m >>> 4).toNat - hb
    let hi' := if hi < 0 then hi - 6 else hi
    subDecimal a m c =
      { result := BitVec.ofNat 8 (((hi' % 16).toNat <<< 4) ||| (lo % 16).toNat), carry := decide (¬ hi < 0) }) ∧
  (∀ (a m : Byte) (c : Bool), (subDecimal a m c).carry = (subBinary a m c).carry) ∧
  (∀ (a m : Byte) (c : Bool), isBcd a → isBcd m →
    (subDecimal a m c).result =
      bcd (((decimalValue a : Int) - decimalValue m - (1 - c.toNat)) % 100).toNat)

/-! ### The instructions: their encodings and the exact state each answers -/

/-- R130, R131, R132. -/
def Obligations.LoadInstructions : Prop :=
  aluEncoding .lda 0xA9 0xA5 0xB5 0xAD 0xBD 0xB9 0xA1 0xB1 ∧
  (∀ b1 b2 : Byte,
    decode 0xA2 b1 b2 = .ldx (.immediate b1) ∧ decode 0xA6 b1 b2 = .ldx (.memory (.zeroPage b1)) ∧
    decode 0xB6 b1 b2 = .ldx (.memory (.zeroPageY b1)) ∧ decode 0xAE b1 b2 = .ldx (.memory (.absolute (word b2 b1))) ∧
    decode 0xBE b1 b2 = .ldx (.memory (.absoluteY (word b2 b1)))) ∧
  (∀ b1 b2 : Byte,
    decode 0xA0 b1 b2 = .ldy (.immediate b1) ∧ decode 0xA4 b1 b2 = .ldy (.memory (.zeroPage b1)) ∧
    decode 0xB4 b1 b2 = .ldy (.memory (.zeroPageX b1)) ∧ decode 0xAC b1 b2 = .ldy (.memory (.absolute (word b2 b1))) ∧
    decode 0xBC b1 b2 = .ldy (.memory (.absoluteX (word b2 b1)))) ∧
  (∀ (o : ReadOperand) (s : State), (Instr.lda o).wellFormed = true →
    exec (.lda o) s = .next (readDone true o s { s with a := o.value s, p := nz s.p (o.value s) })) ∧
  (∀ (o : ReadOperand) (s : State), (Instr.ldx o).wellFormed = true →
    exec (.ldx o) s = .next (readDone true o s { s with x := o.value s, p := nz s.p (o.value s) })) ∧
  (∀ (o : ReadOperand) (s : State), (Instr.ldy o).wellFormed = true →
    exec (.ldy o) s = .next (readDone true o s { s with y := o.value s, p := nz s.p (o.value s) }))

/-- R135, R136, R137; a byte STA stores is what a later fetch reads (R135; 20_memory.md R63). -/
def Obligations.StoreInstructions : Prop :=
  (∀ b1 b2 : Byte,
    decode 0x85 b1 b2 = .sta (.zeroPage b1) ∧ decode 0x95 b1 b2 = .sta (.zeroPageX b1) ∧
    decode 0x8D b1 b2 = .sta (.absolute (word b2 b1)) ∧ decode 0x9D b1 b2 = .sta (.absoluteX (word b2 b1)) ∧
    decode 0x99 b1 b2 = .sta (.absoluteY (word b2 b1)) ∧ decode 0x81 b1 b2 = .sta (.indirectX b1) ∧
    decode 0x91 b1 b2 = .sta (.indirectY b1) ∧ decode 0x89 b1 b2 = .undefined 0x89) ∧
  (∀ b1 b2 : Byte,
    decode 0x86 b1 b2 = .stx (.zeroPage b1) ∧ decode 0x96 b1 b2 = .stx (.zeroPageY b1) ∧
    decode 0x8E b1 b2 = .stx (.absolute (word b2 b1))) ∧
  (∀ b1 b2 : Byte,
    decode 0x84 b1 b2 = .sty (.zeroPage b1) ∧ decode 0x94 b1 b2 = .sty (.zeroPageX b1) ∧
    decode 0x8C b1 b2 = .sty (.absolute (word b2 b1))) ∧
  (∀ (m : MemMode) (s : State), (Instr.sta m).wellFormed = true →
    exec (.sta m) s = .next (storeDone m s { s with mem := s.mem.write (m.ea s).toNat s.a })) ∧
  (∀ (m : MemMode) (s : State), (Instr.stx m).wellFormed = true →
    exec (.stx m) s = .next (storeDone m s { s with mem := s.mem.write (m.ea s).toNat s.x })) ∧
  (∀ (m : MemMode) (s : State), (Instr.sty m).wellFormed = true →
    exec (.sty m) s = .next (storeDone m s { s with mem := s.mem.write (m.ea s).toNat s.y })) ∧
  (∀ (m : MemMode) (s t : State), (Instr.sta m).wellFormed = true → exec (.sta m) s = .next t → t.pc = m.ea s →
    t.fetch = decode s.a (t.readByte (t.pc + 1)) (t.readByte (t.pc + 2)))

/-- R150, R151, R152. -/
def Obligations.LogicalInstructions : Prop :=
  aluEncoding .and 0x29 0x25 0x35 0x2D 0x3D 0x39 0x21 0x31 ∧
  aluEncoding .ora 0x09 0x05 0x15 0x0D 0x1D 0x19 0x01 0x11 ∧
  aluEncoding .eor 0x49 0x45 0x55 0x4D 0x5D 0x59 0x41 0x51 ∧
  (∀ (o : ReadOperand) (s : State), (Instr.and o).wellFormed = true →
    exec (.and o) s = .next (readDone true o s { s with a := s.a &&& o.value s, p := nz s.p (s.a &&& o.value s) })) ∧
  (∀ (o : ReadOperand) (s : State), (Instr.ora o).wellFormed = true →
    exec (.ora o) s = .next (readDone true o s { s with a := s.a ||| o.value s, p := nz s.p (s.a ||| o.value s) })) ∧
  (∀ (o : ReadOperand) (s : State), (Instr.eor o).wellFormed = true →
    exec (.eor o) s = .next (readDone true o s { s with a := s.a ^^^ o.value s, p := nz s.p (s.a ^^^ o.value s) }))

/-- R154 to R158: ASL, LSR, ROL and ROR of A and of memory. ROL and ROR shift the old carry in; all four leave the bit
shifted out in C. -/
def Obligations.ShiftInstructions : Prop :=
  shiftEncoding .asl 0x0A 0x06 0x16 0x0E 0x1E ∧
  shiftEncoding .lsr 0x4A 0x46 0x56 0x4E 0x5E ∧
  shiftEncoding .rol 0x2A 0x26 0x36 0x2E 0x3E ∧
  shiftEncoding .ror 0x6A 0x66 0x76 0x6E 0x7E ∧
  (∀ s : State,
    let done := fun (r : Byte) (c : Bool) =>
      Host.Outcome.next (oneByteDone 2 s { s with a := r, p := nz { s.p with c := c } r })
    exec (.asl .accumulator) s = done (BitVec.ofNat 8 (s.a.toNat * 2 % 256)) (s.a.getLsbD 7) ∧
    exec (.lsr .accumulator) s = done (BitVec.ofNat 8 (s.a.toNat / 2)) (s.a.getLsbD 0) ∧
    exec (.rol .accumulator) s = done (BitVec.ofNat 8 ((s.a.toNat * 2 + s.p.c.toNat) % 256)) (s.a.getLsbD 7) ∧
    exec (.ror .accumulator) s = done (BitVec.ofNat 8 (s.a.toNat / 2 + s.p.c.toNat * 128)) (s.a.getLsbD 0)) ∧
  (∀ (m : RmwMode) (s : State),
    let v := s.readByte (m.ea s)
    let done := fun (r : Byte) (c : Bool) =>
      Host.Outcome.next (rmwDone m s { s with mem := s.mem.write (m.ea s).toNat r, p := nz { s.p with c := c } r })
    exec (.asl (.memory m)) s = done (BitVec.ofNat 8 (v.toNat * 2 % 256)) (v.getLsbD 7) ∧
    exec (.lsr (.memory m)) s = done (BitVec.ofNat 8 (v.toNat / 2)) (v.getLsbD 0) ∧
    exec (.rol (.memory m)) s = done (BitVec.ofNat 8 ((v.toNat * 2 + s.p.c.toNat) % 256)) (v.getLsbD 7) ∧
    exec (.ror (.memory m)) s = done (BitVec.ofNat 8 (v.toNat / 2 + s.p.c.toNat * 128)) (v.getLsbD 0))

/-- R157, its corner case: nine successive ROLs of the same target restore its value and C. -/
def Obligations.NineRotatesRestore : Prop :=
  (∀ s : State, ∃ t, repeated 9 (.rol .accumulator) s = .next t ∧ t.a = s.a ∧ t.p.c = s.p.c) ∧
  (∀ (m : RmwMode) (s : State), ∃ t, repeated 9 (.rol (.memory m)) s = .next t ∧
    t.readByte (m.ea s) = s.readByte (m.ea s) ∧ t.p.c = s.p.c)

/-- R160, R161. -/
def Obligations.MemoryIncrementDecrement : Prop :=
  rmwEncoding .inc 0xE6 0xF6 0xEE 0xFE ∧
  rmwEncoding .dec 0xC6 0xD6 0xCE 0xDE ∧
  (∀ (m : RmwMode) (s : State),
    let v := s.readByte (m.ea s)
    let up : Byte := BitVec.ofNat 8 ((v.toNat + 1) % 256)
    let down : Byte := BitVec.ofNat 8 ((v.toNat + 255) % 256)
    exec (.inc m) s = .next (rmwDone m s { s with mem := s.mem.write (m.ea s).toNat up, p := nz s.p up }) ∧
    exec (.dec m) s = .next (rmwDone m s { s with mem := s.mem.write (m.ea s).toNat down, p := nz s.p down }))

/-- R162 to R165. -/
def Obligations.RegisterIncrementDecrement : Prop :=
  oneByte 0xE8 .inx ∧ oneByte 0xC8 .iny ∧ oneByte 0xCA .dex ∧ oneByte 0x88 .dey ∧
  (∀ s : State,
    let xUp : Byte := BitVec.ofNat 8 ((s.x.toNat + 1) % 256)
    let yUp : Byte := BitVec.ofNat 8 ((s.y.toNat + 1) % 256)
    let xDown : Byte := BitVec.ofNat 8 ((s.x.toNat + 255) % 256)
    let yDown : Byte := BitVec.ofNat 8 ((s.y.toNat + 255) % 256)
    exec .inx s = .next (oneByteDone 2 s { s with x := xUp, p := nz s.p xUp }) ∧
    exec .iny s = .next (oneByteDone 2 s { s with y := yUp, p := nz s.p yUp }) ∧
    exec .dex s = .next (oneByteDone 2 s { s with x := xDown, p := nz s.p xDown }) ∧
    exec .dey s = .next (oneByteDone 2 s { s with y := yDown, p := nz s.p yDown }))

/-- R168: N and V come from the memory byte, Z from A and the memory byte; there is no Immediate form. -/
def Obligations.BitInstruction : Prop :=
  (∀ b1 b2 : Byte, decode 0x24 b1 b2 = .bit (.zeroPage b1) ∧ decode 0x2C b1 b2 = .bit (.absolute (word b2 b1)) ∧
    decode 0x89 b1 b2 = .undefined 0x89) ∧
  (∀ (m : MemMode) (s : State), (Instr.bit m).wellFormed = true →
    let v := s.readByte (m.ea s)
    exec (.bit m) s = .next (readDone false (.memory m) s
      { s with p := { s.p with z := decide (s.a &&& v = 0), n := v.getLsbD 7, v := v.getLsbD 6 } }))

/-- R185, with the flags of R184 in decimal mode. -/
def Obligations.AdcInstruction : Prop :=
  aluEncoding .adc 0x69 0x65 0x75 0x6D 0x7D 0x79 0x61 0x71 ∧
  (∀ (o : ReadOperand) (s : State), (Instr.adc o).wellFormed = true →
    let binary := addBinary s.a (o.value s) s.p.c
    let decimal := addDecimal s.a (o.value s) s.p.c
    (s.p.d = false → exec (.adc o) s = .next (readDone true o s { s with
      a := binary.result, p := nz { s.p with c := binary.carry, v := binary.overflow } binary.result })) ∧
    (s.p.d = true → exec (.adc o) s = .next (readDone true o s { s with
      a := decimal.result, p := nz { s.p with c := decimal.carry, v := binary.overflow } decimal.result })))

/-- R186, with the flags of R184 in decimal mode. -/
def Obligations.SbcInstruction : Prop :=
  aluEncoding .sbc 0xE9 0xE5 0xF5 0xED 0xFD 0xF9 0xE1 0xF1 ∧
  (∀ (o : ReadOperand) (s : State), (Instr.sbc o).wellFormed = true →
    let binary := subBinary s.a (o.value s) s.p.c
    let decimal := subDecimal s.a (o.value s) s.p.c
    (s.p.d = false → exec (.sbc o) s = .next (readDone true o s { s with
      a := binary.result, p := nz { s.p with c := binary.carry, v := binary.overflow } binary.result })) ∧
    (s.p.d = true → exec (.sbc o) s = .next (readDone true o s { s with
      a := decimal.result, p := nz { s.p with c := decimal.carry, v := binary.overflow } decimal.result })))

/-- R190, R191, R192: `Compare` of A, X or Y with the operand; CMP alone pays for a page crossing. -/
def Obligations.CompareInstructions : Prop :=
  aluEncoding .cmp 0xC9 0xC5 0xD5 0xCD 0xDD 0xD9 0xC1 0xD1 ∧
  compareIndexEncoding .cpx 0xE0 0xE4 0xEC ∧
  compareIndexEncoding .cpy 0xC0 0xC4 0xCC ∧
  (∀ (o : ReadOperand) (s : State), (Instr.cmp o).wellFormed = true →
    exec (.cmp o) s = .next (readDone true o s { s with p := s.p.compare s.a (o.value s) })) ∧
  (∀ (o : ReadOperand) (s : State), (Instr.cpx o).wellFormed = true →
    exec (.cpx o) s = .next (readDone false o s { s with p := s.p.compare s.x (o.value s) })) ∧
  (∀ (o : ReadOperand) (s : State), (Instr.cpy o).wellFormed = true →
    exec (.cpy o) s = .next (readDone false o s { s with p := s.p.compare s.y (o.value s) }))

/-- R210 to R213. (PLA sets Z and N: decision D10 of the spec; PHP pushes the stored B: D11.) -/
def Obligations.StackInstructions : Prop :=
  oneByte 0x48 .pha ∧ oneByte 0x68 .pla ∧ oneByte 0x08 .php ∧ oneByte 0x28 .plp ∧
  (∀ s : State,
    exec .pha s = .next (oneByteDone 3 s
      { s with mem := s.mem.write (0x0100 + s.sp.toNat) s.a, sp := s.sp - 1 }) ∧
    exec .pla s = .next (oneByteDone 4 s
      { s with a := stackByte s 1, p := nz s.p (stackByte s 1), sp := s.sp + 1 }) ∧
    exec .php s = .next (oneByteDone 3 s
      { s with mem := s.mem.write (0x0100 + s.sp.toNat) s.p.pack, sp := s.sp - 1 }) ∧
    exec .plp s = .next (oneByteDone 4 s { s with p := Flags.unpack (stackByte s 1), sp := s.sp + 1 }))

/-- R213, its corner case: PHP, then any change of the flags, then PLP restores the flags of PHP time, and SP. -/
def Obligations.PhpThenPlpRestoresFlags : Prop :=
  ∀ (s t u : State) (q : Flags), exec .php s = .next t → exec .plp { t with p := q } = .next u →
    u.p = s.p ∧ u.sp = s.sp

/-- R230 to R238. -/
def Obligations.BranchInstructions : Prop :=
  (∀ b1 b2 : Byte,
    decode 0x10 b1 b2 = .bpl b1 ∧ decode 0x30 b1 b2 = .bmi b1 ∧ decode 0x50 b1 b2 = .bvc b1 ∧
    decode 0x70 b1 b2 = .bvs b1 ∧ decode 0x90 b1 b2 = .bcc b1 ∧ decode 0xB0 b1 b2 = .bcs b1 ∧
    decode 0xD0 b1 b2 = .bne b1 ∧ decode 0xF0 b1 b2 = .beq b1) ∧
  (∀ (s : State) (b : Byte),
    exec (.bpl b) s = .next (branchResult s (!s.p.n) b) ∧
    exec (.bmi b) s = .next (branchResult s s.p.n b) ∧
    exec (.bvc b) s = .next (branchResult s (!s.p.v) b) ∧
    exec (.bvs b) s = .next (branchResult s s.p.v b) ∧
    exec (.bcc b) s = .next (branchResult s (!s.p.c) b) ∧
    exec (.bcs b) s = .next (branchResult s s.p.c b) ∧
    exec (.bne b) s = .next (branchResult s (!s.p.z) b) ∧
    exec (.beq b) s = .next (branchResult s s.p.z b))

/-- R240, R241: the indirect target's high byte is read from `word(hi, (lo + 1) mod 256)`. -/
def Obligations.JumpInstructions : Prop :=
  (∀ b1 b2 : Byte, decode 0x4C b1 b2 = .jmp (.absolute (word b2 b1)) ∧
    decode 0x6C b1 b2 = .jmp (.indirect (word b2 b1))) ∧
  (∀ (s : State) (w : Word), exec (.jmp (.absolute w)) s = .next { s with pc := w, cycles := s.cycles + 3 }) ∧
  (∀ (s : State) (lo hi : Byte), exec (.jmp (.indirect (word hi lo))) s = .next { s with
    pc := word (s.readByte (word hi (lo + 1))) (s.readByte (word hi lo)), cycles := s.cycles + 5 })

/-- R245, R246. -/
def Obligations.SubroutineInstructions : Prop :=
  (∀ b1 b2 : Byte, decode 0x20 b1 b2 = .jsr (word b2 b1)) ∧ oneByte 0x60 .rts ∧
  (∀ (s : State) (target : Word), exec (.jsr target) s = .next { s with
    mem := (s.mem.write (0x0100 + s.sp.toNat) (hiByte (s.pc + 2))).write (0x0100 + (s.sp - 1).toNat) (loByte (s.pc + 2))
    sp := s.sp - 2, pc := target, cycles := s.cycles + 6 }) ∧
  (∀ s : State, exec .rts s = .next { s with
    pc := word (stackByte s 2) (stackByte s 1) + 1, sp := s.sp + 2, cycles := s.cycles + 6 })

/-- R246, its corner case: RTS after a JSR continues after the JSR with SP as before it, whatever SP is. -/
def Obligations.JsrThenRtsReturns : Prop :=
  ∀ (s t u : State) (target : Word), exec (.jsr target) s = .next t → exec .rts t = .next u →
    u.pc = s.pc + 3 ∧ u.sp = s.sp ∧ t.pc = target

/-- R250: P from the first pulled byte, PC from the next two, nothing added. -/
def Obligations.RtiInstruction : Prop :=
  oneByte 0x40 .rti ∧
  (∀ s : State, exec .rti s = .next { s with
    p := Flags.unpack (stackByte s 1), pc := word (stackByte s 3) (stackByte s 2), sp := s.sp + 3,
    cycles := s.cycles + 6 })

/-- R306 (marked derived by the spec): RTI to a frame a program pushed itself, whatever SP is. -/
def Obligations.HandBuiltFrameReturns : Prop :=
  ∀ (s u : State) (pch pcl status : Byte), exec .rti (((s.push pch).push pcl).push status) = .next u →
    u.pc = word pch pcl ∧ u.p = Flags.unpack status ∧ u.sp = s.sp

/-- R252, R278: BRK and NOP only advance PC and cost their cycles. -/
def Obligations.BrkAndNop : Prop :=
  oneByte 0x00 .brk ∧ oneByte 0xEA .nop ∧
  (∀ s : State, exec .brk s = .next (oneByteDone 7 s s) ∧ exec .nop s = .next (oneByteDone 2 s s))

/-- R260 to R266. -/
def Obligations.FlagInstructions : Prop :=
  oneByte 0x18 .clc ∧ oneByte 0x38 .sec ∧ oneByte 0x58 .cli ∧ oneByte 0x78 .sei ∧ oneByte 0xD8 .cld ∧
  oneByte 0xF8 .sed ∧ oneByte 0xB8 .clv ∧
  (∀ s : State,
    exec .clc s = .next (oneByteDone 2 s { s with p := { s.p with c := false } }) ∧
    exec .sec s = .next (oneByteDone 2 s { s with p := { s.p with c := true } }) ∧
    exec .cli s = .next (oneByteDone 2 s { s with p := { s.p with i := false } }) ∧
    exec .sei s = .next (oneByteDone 2 s { s with p := { s.p with i := true } }) ∧
    exec .cld s = .next (oneByteDone 2 s { s with p := { s.p with d := false } }) ∧
    exec .sed s = .next (oneByteDone 2 s { s with p := { s.p with d := true } }) ∧
    exec .clv s = .next (oneByteDone 2 s { s with p := { s.p with v := false } }))

/-- R270 to R275: TXS alone writes no flag. -/
def Obligations.TransferInstructions : Prop :=
  oneByte 0xAA .tax ∧ oneByte 0x8A .txa ∧ oneByte 0xA8 .tay ∧ oneByte 0x98 .tya ∧ oneByte 0xBA .tsx ∧
  oneByte 0x9A .txs ∧
  (∀ s : State,
    exec .tax s = .next (oneByteDone 2 s { s with x := s.a, p := nz s.p s.a }) ∧
    exec .txa s = .next (oneByteDone 2 s { s with a := s.x, p := nz s.p s.x }) ∧
    exec .tay s = .next (oneByteDone 2 s { s with y := s.a, p := nz s.p s.a }) ∧
    exec .tya s = .next (oneByteDone 2 s { s with a := s.y, p := nz s.p s.y }) ∧
    exec .tsx s = .next (oneByteDone 2 s { s with x := s.sp, p := nz s.p s.sp }) ∧
    exec .txs s = .next (oneByteDone 2 s { s with sp := s.x }))

/-! ### Frames and whole-machine rules, over all instructions -/

/-- R21 to R23, R25: each register is written only by the instructions its rule names. -/
def Obligations.RegisterWriters : Prop :=
  ∀ (i : Instr) (s t : State), exec i s = .next t →
    (i.mnemonic ∉ ["LDA", "PLA", "TXA", "TYA", "AND", "ORA", "EOR", "ADC", "SBC"] → i.mode ≠ .accumulator →
      t.a = s.a) ∧
    (i.mnemonic ∉ ["LDX", "TAX", "TSX", "INX", "DEX"] → t.x = s.x) ∧
    (i.mnemonic ∉ ["LDY", "TAY", "INY", "DEY"] → t.y = s.y) ∧
    (i.mnemonic ∉ ["TXS", "PHA", "PHP", "PLA", "PLP", "JSR", "RTS", "RTI"] → t.sp = s.sp)

/-- R34 to R40: each flag is written only by the instructions its rule names. -/
def Obligations.FlagWriters : Prop :=
  ∀ (i : Instr) (s t : State), exec i s = .next t →
    (i.mnemonic ∉ ["ADC", "SBC", "CMP", "CPX", "CPY", "ASL", "LSR", "ROL", "ROR", "SEC", "CLC", "PLP", "RTI"] →
      t.p.c = s.p.c) ∧
    (i.mnemonic ∉ ["LDA", "LDX", "LDY", "AND", "ORA", "EOR", "ASL", "LSR", "ROL", "ROR", "INC", "DEC", "INX", "INY",
        "DEX", "DEY", "BIT", "ADC", "SBC", "CMP", "CPX", "CPY", "PLA", "TAX", "TXA", "TAY", "TYA", "TSX", "PLP", "RTI"] →
      t.p.z = s.p.z ∧ t.p.n = s.p.n) ∧
    (i.mnemonic ∉ ["SEI", "CLI", "PLP", "RTI"] → t.p.i = s.p.i) ∧
    (i.mnemonic ∉ ["SED", "CLD", "PLP", "RTI"] → t.p.d = s.p.d) ∧
    (i.mnemonic ∉ ["PLP", "RTI"] → t.p.b = s.p.b) ∧
    (i.mnemonic ∉ ["ADC", "SBC", "BIT", "CLV", "PLP", "RTI"] → t.p.v = s.p.v)

/-- Every byte of memory outside the addresses an instruction stores to reads as before (R52, R55, R57, R114, R135,
R154). -/
def Obligations.MemoryFrame : Prop :=
  ∀ (i : Instr) (s t : State), exec i s = .next t →
    ∀ addr : Word, addr ∉ storedAt i s → t.readByte addr = s.readByte addr

/-- R28: after an instruction PC is PCnext, modulo 65536, unless the instruction sets it (the wrap is decision D15 of the
spec). -/
def Obligations.PcAfterInstruction : Prop :=
  ∀ (i : Instr) (s t : State), exec i s = .next t → setsPc i s = false →
    t.pc.toNat = (s.pc.toNat + i.length) % 65536

/-- R360 to R362: every instruction costs between 2 and 7 cycles, and never less than its base cost; Cycles wraps
modulo 2^64 (R41). The base costs are those of R78 (decision D2 of the spec). -/
def Obligations.CyclesCharged : Prop :=
  ∀ (i : Instr) (s t : State), exec i s = .next t →
    ∃ n, i.baseCycles ≤ n ∧ n ≤ i.baseCycles + 2 ∧ 2 ≤ n ∧ n ≤ 7 ∧ t.cycles.toNat = (s.cycles.toNat + n) % 2 ^ 64

/-- R41, R310: no instruction reads Cycles. A run that differs only in Cycles does the same and is charged the same. -/
def Obligations.CyclesReadByNoInstruction : Prop :=
  ∀ (i : Instr) (s t : State) (n : CycleCount), exec i s = .next t →
    exec i { s with cycles := n } = .next { t with cycles := n + (t.cycles - s.cycles) }

/-- R37, R193: D changes only what ADC and SBC compute, and what PHP packs; SED, CLD, PLP and RTI overwrite it. -/
def Obligations.DecimalFlagIsolation : Prop :=
  (∀ (i : Instr) (s t : State) (v : Bool),
    i.mnemonic ∉ ["ADC", "SBC", "PHP", "SED", "CLD", "PLP", "RTI"] → exec i s = .next t →
    exec i (withD s v) = .next (withD t v)) ∧
  (∀ (i : Instr) (s : State) (v : Bool), i.mnemonic ∈ ["SED", "CLD", "PLP", "RTI"] →
    exec i (withD s v) = exec i s)

/-- R36, R38, R303: I and B gate nothing. They change no instruction but what PHP packs; PLP and RTI overwrite both, SEI
and CLI overwrite I. -/
def Obligations.InterruptAndBreakFlagsGateNothing : Prop :=
  (∀ (i : Instr) (s t : State) (v : Bool), i.mnemonic ∉ ["PHP", "SEI", "CLI", "PLP", "RTI"] → exec i s = .next t →
    exec i (withI s v) = .next (withI t v)) ∧
  (∀ (i : Instr) (s : State) (v : Bool), i.mnemonic ∈ ["SEI", "CLI", "PLP", "RTI"] →
    exec i (withI s v) = exec i s) ∧
  (∀ (i : Instr) (s t : State) (v : Bool), i.mnemonic ∉ ["PHP", "PLP", "RTI"] → exec i s = .next t →
    exec i (withB s v) = .next (withB t v)) ∧
  (∀ (i : Instr) (s : State) (v : Bool), i.mnemonic ∈ ["PLP", "RTI"] → exec i (withB s v) = exec i s)
end

