-- ==== Sys2Proof/Laws/Decode.lean ====
section
/-! SUPPORT. The decoder by instruction length, and what an opcode byte decides. -/

namespace Sys2Proof

/-- A property of every opcode byte, shown row by row and column by column of the grid (30_encoding.md R79). -/
theorem forall_opcode {P : Byte → Prop} (h : ∀ row < 16, ∀ column < 16, P (BitVec.ofNat 8 (row * 16 + column)))
    (op : Byte) : P op := by
  have hop := op.isLt
  have := h (op.toNat / 16) (by omega) (op.toNat % 16) (by omega)
  rwa [show op.toNat / 16 * 16 + op.toNat % 16 = op.toNat by omega, BitVec.ofNat_toNat, BitVec.setWidth_eq] at this

/-- A byte is one of the defined opcodes, or decodes as undefined. -/
theorem decode_cases (op b1 b2 : Byte) :
    (decodeDefined op b1 b2 = some (decode op b1 b2)) ∨
    (decodeDefined op b1 b2 = none ∧ decode op b1 b2 = .undefined op) := by
  unfold decode
  split
  · rename_i i h; exact .inl h
  · rename_i h; exact .inr ⟨h, rfl⟩

theorem decodeBytes_one {op : Byte} (rest : List Byte) (hl : opcodeLength op = 1) :
    decodeBytes (op :: rest) = .ok (decode op 0 0, rest) := by
  simp only [decodeBytes, hl]

theorem decodeBytes_two {op : Byte} (b1 : Byte) (rest : List Byte) (hl : opcodeLength op = 2) :
    decodeBytes (op :: b1 :: rest) = .ok (decode op b1 0, rest) := by
  simp only [decodeBytes, hl]

theorem decodeBytes_three {op : Byte} (b1 b2 : Byte) (rest : List Byte) (hl : opcodeLength op = 3) :
    decodeBytes (op :: b1 :: b2 :: rest) = .ok (decode op b1 b2, rest) := by
  simp only [decodeBytes, hl]

/-- An operand word comes back from its two bytes, whatever is built on it. -/
theorem decodeBytes_word {op : Byte} {mk : Word → Instr} (w : Word) (rest : List Byte) (hl : opcodeLength op = 3)
    (h : ∀ b1 b2, decode op b1 b2 = mk (word b2 b1)) :
    decodeBytes (op :: loByte w :: hiByte w :: rest) = .ok (mk w, rest) := by
  rw [decodeBytes_three _ _ _ hl, h, word_hiByte_loByte]

/-- The length of every instruction is 1, 2 or 3 (30_encoding.md R70). -/
theorem Instr.length_range (i : Instr) : 1 ≤ i.length ∧ i.length ≤ 3 := by
  have h : i.mode.operandBytes ≤ 2 := by cases i.mode <;> decide
  simp only [Instr.length]
  omega

end Sys2Proof
end

