-- ==== Sys2Proof/Laws/Memory.lean ====
section
/-! SUPPORT. The laws of the memory list: a read after a write, and the canonical form, which every operation keeps and
which makes equal memories equal data. -/

namespace Sys2Proof.Machine

@[simp] theorem Memory.read_nil (a : Nat) : Memory.read [] a = 0 := rfl

theorem Memory.read_cons (k : Nat) (v : Byte) (rest : Memory) (a : Nat) :
    Memory.read ((k, v) :: rest) a = if k = a then v else Memory.read rest a := rfl

theorem Memory.read_insert (m : Memory) (a : Nat) (v : Byte) (a' : Nat) :
    Memory.read (Memory.insert m a v) a' = if a' = a then v else Memory.read m a' := by
  induction m with
  | nil => simp only [Memory.insert, Memory.read, eq_comm]
  | cons cell rest ih =>
    obtain ⟨k, u⟩ := cell
    simp only [Memory.insert]
    split
    · simp only [Memory.read, eq_comm]
    · split
      · subst_vars
        simp only [Memory.read, eq_comm (a := a')]
        split <;> simp_all
      · simp only [Memory.read, ih]
        split <;> split <;> simp_all

theorem Memory.read_filter_ne (m : Memory) (a a' : Nat) :
    Memory.read (m.filter fun cell => cell.1 ≠ a) a' = if a' = a then 0 else Memory.read m a' := by
  induction m with
  | nil => simp
  | cons cell rest ih =>
    obtain ⟨k, u⟩ := cell
    by_cases hk : k = a
    · subst hk
      simp only [List.filter_cons, ne_eq, not_true_eq_false, decide_false, Bool.false_eq_true, if_false]
      rw [ih]
      split
      · rfl
      · rename_i hne
        rw [Memory.read_cons, if_neg (Ne.symm hne)]
    · simp only [List.filter_cons, ne_eq, hk, not_false_eq_true, decide_true, if_true]
      rw [Memory.read_cons, Memory.read_cons, ih]
      split <;> split <;> simp_all

/-- A read after a write, whatever the memory (20_memory.md R52). -/
theorem Memory.read_write (m : Memory) (a : Nat) (v : Byte) (a' : Nat) :
    Memory.read (Memory.write m a v) a' = if a' = a then v else Memory.read m a' := by
  unfold Memory.write
  split
  · subst_vars; exact Memory.read_filter_ne m a a'
  · exact Memory.read_insert m a v a'

@[simp] theorem Memory.read_write_same (m : Memory) (a : Nat) (v : Byte) :
    Memory.read (Memory.write m a v) a = v := by
  rw [Memory.read_write, if_pos rfl]

theorem Memory.read_write_other (m : Memory) {a a' : Nat} (v : Byte) (h : a' ≠ a) :
    Memory.read (Memory.write m a v) a' = Memory.read m a' := by
  rw [Memory.read_write, if_neg h]

@[simp] theorem State.readByte_writeByte_same (s : State) (w : Word) (v : Byte) :
    (s.writeByte w v).readByte w = v := Memory.read_write_same _ _ _

theorem State.readByte_writeByte (s : State) (w : Word) (v : Byte) (w' : Word) :
    (s.writeByte w v).readByte w' = if w' = w then v else s.readByte w' := by
  simp only [State.readByte, State.writeByte, Memory.read_write, BitVec.toNat_inj]

theorem State.readByte_writeByte_other (s : State) {w w' : Word} (v : Byte) (h : w' ≠ w) :
    (s.writeByte w v).readByte w' = s.readByte w' := by
  rw [State.readByte_writeByte, if_neg h]

/-! ### The canonical form -/

theorem Memory.wf_cons (k : Nat) (v : Byte) (rest : Memory) :
    Memory.wf ((k, v) :: rest) = true ↔
      k < 65536 ∧ v ≠ 0 ∧ (∀ cell ∈ rest, k < cell.1) ∧ Memory.wf rest = true := by
  simp [Memory.wf, and_assoc]

theorem Memory.mem_insert {m : Memory} {a : Nat} {v : Byte} {cell : Host.Cell}
    (h : cell ∈ Memory.insert m a v) : cell = (a, v) ∨ cell ∈ m := by
  induction m with
  | nil => simpa [Memory.insert] using h
  | cons c rest ih =>
    obtain ⟨k, u⟩ := c
    simp only [Memory.insert] at h
    split at h
    · simpa using h
    · split at h
      · simp only [List.mem_cons] at h ⊢
        tauto
      · simp only [List.mem_cons] at h ⊢
        rcases h with h | h
        · exact .inr (.inl h)
        · exact (ih h).imp_right .inr

theorem Memory.wf_insert {m : Memory} (hm : m.wf = true) {a : Nat} (ha : a < 65536) {v : Byte} (hv : v ≠ 0) :
    (Memory.insert m a v).wf = true := by
  induction m with
  | nil => exact (Memory.wf_cons _ _ _).2 ⟨ha, hv, fun _ hc => absurd hc List.not_mem_nil, rfl⟩
  | cons c rest ih =>
    obtain ⟨k, u⟩ := c
    obtain ⟨hk, hu, hall, hrest⟩ := (Memory.wf_cons k u rest).1 hm
    simp only [Memory.insert]
    split
    · rename_i hlt
      refine (Memory.wf_cons _ _ _).2 ⟨ha, hv, fun cell hc => ?_, hm⟩
      rcases List.mem_cons.1 hc with rfl | hc
      · exact hlt
      · exact hlt.trans (hall cell hc)
    · split
      · subst_vars; exact (Memory.wf_cons _ _ _).2 ⟨ha, hv, hall, hrest⟩
      · rename_i hnlt hne
        refine (Memory.wf_cons _ _ _).2 ⟨hk, hu, fun cell hc => ?_, ih hrest⟩
        rcases Memory.mem_insert hc with rfl | hc
        · show k < a
          omega
        · exact hall cell hc

theorem Memory.wf_filter {m : Memory} (hm : m.wf = true) (f : Host.Cell → Bool) : Memory.wf (m.filter f) = true := by
  induction m with
  | nil => rfl
  | cons c rest ih =>
    obtain ⟨k, u⟩ := c
    obtain ⟨hk, hu, hall, hrest⟩ := (Memory.wf_cons k u rest).1 hm
    simp only [List.filter_cons]
    split
    · exact (Memory.wf_cons _ _ _).2 ⟨hk, hu, fun cell hc => hall cell (List.mem_of_mem_filter hc), ih hrest⟩
    · exact ih hrest

/-- Every write keeps the canonical form. -/
theorem Memory.wf_write {m : Memory} (hm : m.wf = true) {a : Nat} (ha : a < 65536) (v : Byte) :
    (Memory.write m a v).wf = true := by
  unfold Memory.write
  split
  · exact Memory.wf_filter hm _
  · rename_i hv
    exact Memory.wf_insert hm ha hv

theorem State.wf_writeByte {s : State} (h : s.mem.wf = true) (w : Word) (v : Byte) :
    (s.writeByte w v).mem.wf = true := Memory.wf_write h w.isLt v

theorem Memory.read_eq_zero_of_lt {m : Memory} {a : Nat} (h : ∀ cell ∈ m, a < cell.1) : m.read a = 0 := by
  induction m with
  | nil => rfl
  | cons c rest ih =>
    obtain ⟨k, u⟩ := c
    have hk : a < k := h (k, u) (List.mem_cons_self ..)
    rw [Memory.read_cons, if_neg (by omega), ih fun cell hc => h cell (List.mem_cons_of_mem _ hc)]

/-- Two memories in canonical form that read alike are the same list. -/
theorem Memory.eq_of_read {m m' : Memory} (hm : m.wf = true) (hm' : m'.wf = true)
    (h : ∀ a, m.read a = m'.read a) : m = m' := by
  induction m generalizing m' with
  | nil =>
    cases m' with
    | nil => rfl
    | cons c rest =>
      obtain ⟨k, u⟩ := c
      obtain ⟨-, hu, -, -⟩ := (Memory.wf_cons k u rest).1 hm'
      have := h k
      rw [Memory.read_nil, Memory.read_cons, if_pos rfl] at this
      exact absurd this.symm hu
  | cons c rest ih =>
    obtain ⟨k, u⟩ := c
    obtain ⟨-, hu, hall, hrest⟩ := (Memory.wf_cons k u rest).1 hm
    cases m' with
    | nil =>
      have := h k
      rw [Memory.read_nil, Memory.read_cons, if_pos rfl] at this
      exact absurd this hu
    | cons c' rest' =>
      obtain ⟨k', u'⟩ := c'
      obtain ⟨-, hu', hall', hrest'⟩ := (Memory.wf_cons k' u' rest').1 hm'
      have below : ∀ {n : Nat}, n < k → Memory.read ((k, u) :: rest) n = 0 := fun hn =>
        Memory.read_eq_zero_of_lt fun cell hc => by
          rcases List.mem_cons.1 hc with rfl | hc
          · exact hn
          · exact hn.trans (hall cell hc)
      have below' : ∀ {n : Nat}, n < k' → Memory.read ((k', u') :: rest') n = 0 := fun hn =>
        Memory.read_eq_zero_of_lt fun cell hc => by
          rcases List.mem_cons.1 hc with rfl | hc
          · exact hn
          · exact hn.trans (hall' cell hc)
      have hkk : k = k' := by
        rcases Nat.lt_trichotomy k k' with hlt | heq | hgt
        · have := h k
          rw [below' hlt, Memory.read_cons, if_pos rfl] at this
          exact absurd this hu
        · exact heq
        · have := h k'
          rw [below hgt, Memory.read_cons, if_pos rfl] at this
          exact absurd this.symm hu'
      subst hkk
      have huu : u = u' := by
        have := h k
        rwa [Memory.read_cons, Memory.read_cons, if_pos rfl, if_pos rfl] at this
      subst huu
      have : rest = rest' := ih hrest hrest' fun a => by
        by_cases ha : k = a
        · subst ha
          rw [Memory.read_eq_zero_of_lt hall, Memory.read_eq_zero_of_lt hall']
        · have := h a
          rwa [Memory.read_cons, Memory.read_cons, if_neg ha, if_neg ha] at this
      rw [this]

end Sys2Proof.Machine
end

