-- ==== Sys2Proof/Laws/State.lean ====
section
/-! SUPPORT. What each named update of the state does to each field, so that no proof unfolds a record update. -/

namespace Sys2Proof.Machine

variable (s : State)

/-! ### `State.setA` -/

@[simp] theorem State.setA_a (v : Byte) : (s.setA v).a = v := rfl
@[simp] theorem State.setA_x (v : Byte) : (s.setA v).x = s.x := rfl
@[simp] theorem State.setA_y (v : Byte) : (s.setA v).y = s.y := rfl
@[simp] theorem State.setA_sp (v : Byte) : (s.setA v).sp = s.sp := rfl
@[simp] theorem State.setA_pc (v : Byte) : (s.setA v).pc = s.pc := rfl
@[simp] theorem State.setA_p (v : Byte) : (s.setA v).p = s.p := rfl
@[simp] theorem State.setA_cycles (v : Byte) : (s.setA v).cycles = s.cycles := rfl
@[simp] theorem State.setA_mem (v : Byte) : (s.setA v).mem = s.mem := rfl
@[simp] theorem State.setA_window (v : Byte) : (s.setA v).window = s.window := rfl
@[simp] theorem State.setA_cfg (v : Byte) : (s.setA v).cfg = s.cfg := rfl

/-! ### `State.setX` -/

@[simp] theorem State.setX_a (v : Byte) : (s.setX v).a = s.a := rfl
@[simp] theorem State.setX_x (v : Byte) : (s.setX v).x = v := rfl
@[simp] theorem State.setX_y (v : Byte) : (s.setX v).y = s.y := rfl
@[simp] theorem State.setX_sp (v : Byte) : (s.setX v).sp = s.sp := rfl
@[simp] theorem State.setX_pc (v : Byte) : (s.setX v).pc = s.pc := rfl
@[simp] theorem State.setX_p (v : Byte) : (s.setX v).p = s.p := rfl
@[simp] theorem State.setX_cycles (v : Byte) : (s.setX v).cycles = s.cycles := rfl
@[simp] theorem State.setX_mem (v : Byte) : (s.setX v).mem = s.mem := rfl
@[simp] theorem State.setX_window (v : Byte) : (s.setX v).window = s.window := rfl
@[simp] theorem State.setX_cfg (v : Byte) : (s.setX v).cfg = s.cfg := rfl

/-! ### `State.setY` -/

@[simp] theorem State.setY_a (v : Byte) : (s.setY v).a = s.a := rfl
@[simp] theorem State.setY_x (v : Byte) : (s.setY v).x = s.x := rfl
@[simp] theorem State.setY_y (v : Byte) : (s.setY v).y = v := rfl
@[simp] theorem State.setY_sp (v : Byte) : (s.setY v).sp = s.sp := rfl
@[simp] theorem State.setY_pc (v : Byte) : (s.setY v).pc = s.pc := rfl
@[simp] theorem State.setY_p (v : Byte) : (s.setY v).p = s.p := rfl
@[simp] theorem State.setY_cycles (v : Byte) : (s.setY v).cycles = s.cycles := rfl
@[simp] theorem State.setY_mem (v : Byte) : (s.setY v).mem = s.mem := rfl
@[simp] theorem State.setY_window (v : Byte) : (s.setY v).window = s.window := rfl
@[simp] theorem State.setY_cfg (v : Byte) : (s.setY v).cfg = s.cfg := rfl

/-! ### `State.setSp` -/

@[simp] theorem State.setSp_a (v : Byte) : (s.setSp v).a = s.a := rfl
@[simp] theorem State.setSp_x (v : Byte) : (s.setSp v).x = s.x := rfl
@[simp] theorem State.setSp_y (v : Byte) : (s.setSp v).y = s.y := rfl
@[simp] theorem State.setSp_sp (v : Byte) : (s.setSp v).sp = v := rfl
@[simp] theorem State.setSp_pc (v : Byte) : (s.setSp v).pc = s.pc := rfl
@[simp] theorem State.setSp_p (v : Byte) : (s.setSp v).p = s.p := rfl
@[simp] theorem State.setSp_cycles (v : Byte) : (s.setSp v).cycles = s.cycles := rfl
@[simp] theorem State.setSp_mem (v : Byte) : (s.setSp v).mem = s.mem := rfl
@[simp] theorem State.setSp_window (v : Byte) : (s.setSp v).window = s.window := rfl
@[simp] theorem State.setSp_cfg (v : Byte) : (s.setSp v).cfg = s.cfg := rfl

/-! ### `State.setPc` -/

@[simp] theorem State.setPc_a (w : Word) : (s.setPc w).a = s.a := rfl
@[simp] theorem State.setPc_x (w : Word) : (s.setPc w).x = s.x := rfl
@[simp] theorem State.setPc_y (w : Word) : (s.setPc w).y = s.y := rfl
@[simp] theorem State.setPc_sp (w : Word) : (s.setPc w).sp = s.sp := rfl
@[simp] theorem State.setPc_pc (w : Word) : (s.setPc w).pc = w := rfl
@[simp] theorem State.setPc_p (w : Word) : (s.setPc w).p = s.p := rfl
@[simp] theorem State.setPc_cycles (w : Word) : (s.setPc w).cycles = s.cycles := rfl
@[simp] theorem State.setPc_mem (w : Word) : (s.setPc w).mem = s.mem := rfl
@[simp] theorem State.setPc_window (w : Word) : (s.setPc w).window = s.window := rfl
@[simp] theorem State.setPc_cfg (w : Word) : (s.setPc w).cfg = s.cfg := rfl

/-! ### `State.setP` -/

@[simp] theorem State.setP_a (p : Flags) : (s.setP p).a = s.a := rfl
@[simp] theorem State.setP_x (p : Flags) : (s.setP p).x = s.x := rfl
@[simp] theorem State.setP_y (p : Flags) : (s.setP p).y = s.y := rfl
@[simp] theorem State.setP_sp (p : Flags) : (s.setP p).sp = s.sp := rfl
@[simp] theorem State.setP_pc (p : Flags) : (s.setP p).pc = s.pc := rfl
@[simp] theorem State.setP_p (p : Flags) : (s.setP p).p = p := rfl
@[simp] theorem State.setP_cycles (p : Flags) : (s.setP p).cycles = s.cycles := rfl
@[simp] theorem State.setP_mem (p : Flags) : (s.setP p).mem = s.mem := rfl
@[simp] theorem State.setP_window (p : Flags) : (s.setP p).window = s.window := rfl
@[simp] theorem State.setP_cfg (p : Flags) : (s.setP p).cfg = s.cfg := rfl

/-! ### `State.setNZ` -/

@[simp] theorem State.setNZ_a (v : Byte) : (s.setNZ v).a = s.a := rfl
@[simp] theorem State.setNZ_x (v : Byte) : (s.setNZ v).x = s.x := rfl
@[simp] theorem State.setNZ_y (v : Byte) : (s.setNZ v).y = s.y := rfl
@[simp] theorem State.setNZ_sp (v : Byte) : (s.setNZ v).sp = s.sp := rfl
@[simp] theorem State.setNZ_pc (v : Byte) : (s.setNZ v).pc = s.pc := rfl
@[simp] theorem State.setNZ_p (v : Byte) : (s.setNZ v).p = s.p.setNZ v := rfl
@[simp] theorem State.setNZ_cycles (v : Byte) : (s.setNZ v).cycles = s.cycles := rfl
@[simp] theorem State.setNZ_mem (v : Byte) : (s.setNZ v).mem = s.mem := rfl
@[simp] theorem State.setNZ_window (v : Byte) : (s.setNZ v).window = s.window := rfl
@[simp] theorem State.setNZ_cfg (v : Byte) : (s.setNZ v).cfg = s.cfg := rfl

/-! ### `State.charge` -/

@[simp] theorem State.charge_a (n : Nat) : (s.charge n).a = s.a := rfl
@[simp] theorem State.charge_x (n : Nat) : (s.charge n).x = s.x := rfl
@[simp] theorem State.charge_y (n : Nat) : (s.charge n).y = s.y := rfl
@[simp] theorem State.charge_sp (n : Nat) : (s.charge n).sp = s.sp := rfl
@[simp] theorem State.charge_pc (n : Nat) : (s.charge n).pc = s.pc := rfl
@[simp] theorem State.charge_p (n : Nat) : (s.charge n).p = s.p := rfl
@[simp] theorem State.charge_cycles (n : Nat) : (s.charge n).cycles = s.cycles + BitVec.ofNat 64 n := rfl
@[simp] theorem State.charge_mem (n : Nat) : (s.charge n).mem = s.mem := rfl
@[simp] theorem State.charge_window (n : Nat) : (s.charge n).window = s.window := rfl
@[simp] theorem State.charge_cfg (n : Nat) : (s.charge n).cfg = s.cfg := rfl

/-! ### `State.writeByte` -/

@[simp] theorem State.writeByte_a (w : Word) (v : Byte) : (s.writeByte w v).a = s.a := rfl
@[simp] theorem State.writeByte_x (w : Word) (v : Byte) : (s.writeByte w v).x = s.x := rfl
@[simp] theorem State.writeByte_y (w : Word) (v : Byte) : (s.writeByte w v).y = s.y := rfl
@[simp] theorem State.writeByte_sp (w : Word) (v : Byte) : (s.writeByte w v).sp = s.sp := rfl
@[simp] theorem State.writeByte_pc (w : Word) (v : Byte) : (s.writeByte w v).pc = s.pc := rfl
@[simp] theorem State.writeByte_p (w : Word) (v : Byte) : (s.writeByte w v).p = s.p := rfl
@[simp] theorem State.writeByte_cycles (w : Word) (v : Byte) : (s.writeByte w v).cycles = s.cycles := rfl
@[simp] theorem State.writeByte_mem (w : Word) (v : Byte) : (s.writeByte w v).mem = s.mem.write w.toNat v := rfl
@[simp] theorem State.writeByte_window (w : Word) (v : Byte) : (s.writeByte w v).window = s.window := rfl
@[simp] theorem State.writeByte_cfg (w : Word) (v : Byte) : (s.writeByte w v).cfg = s.cfg := rfl

/-! ### `State.push` -/

@[simp] theorem State.push_a (v : Byte) : (s.push v).a = s.a := rfl
@[simp] theorem State.push_x (v : Byte) : (s.push v).x = s.x := rfl
@[simp] theorem State.push_y (v : Byte) : (s.push v).y = s.y := rfl
@[simp] theorem State.push_sp (v : Byte) : (s.push v).sp = s.sp - 1 := rfl
@[simp] theorem State.push_pc (v : Byte) : (s.push v).pc = s.pc := rfl
@[simp] theorem State.push_p (v : Byte) : (s.push v).p = s.p := rfl
@[simp] theorem State.push_cycles (v : Byte) : (s.push v).cycles = s.cycles := rfl
@[simp] theorem State.push_mem (v : Byte) : (s.push v).mem = s.mem.write (stackAddr s.sp).toNat v := rfl
@[simp] theorem State.push_window (v : Byte) : (s.push v).window = s.window := rfl
@[simp] theorem State.push_cfg (v : Byte) : (s.push v).cfg = s.cfg := rfl

/-! ### `State.pulled` -/

@[simp] theorem State.pulled_a : (s.pulled).a = s.a := rfl
@[simp] theorem State.pulled_x : (s.pulled).x = s.x := rfl
@[simp] theorem State.pulled_y : (s.pulled).y = s.y := rfl
@[simp] theorem State.pulled_sp : (s.pulled).sp = s.sp + 1 := rfl
@[simp] theorem State.pulled_pc : (s.pulled).pc = s.pc := rfl
@[simp] theorem State.pulled_p : (s.pulled).p = s.p := rfl
@[simp] theorem State.pulled_cycles : (s.pulled).cycles = s.cycles := rfl
@[simp] theorem State.pulled_mem : (s.pulled).mem = s.mem := rfl
@[simp] theorem State.pulled_window : (s.pulled).window = s.window := rfl
@[simp] theorem State.pulled_cfg : (s.pulled).cfg = s.cfg := rfl

/-! ### `State.toPcNext` -/

@[simp] theorem State.toPcNext_a (i : Instr) : (s.toPcNext i).a = s.a := rfl
@[simp] theorem State.toPcNext_x (i : Instr) : (s.toPcNext i).x = s.x := rfl
@[simp] theorem State.toPcNext_y (i : Instr) : (s.toPcNext i).y = s.y := rfl
@[simp] theorem State.toPcNext_sp (i : Instr) : (s.toPcNext i).sp = s.sp := rfl
@[simp] theorem State.toPcNext_pc (i : Instr) : (s.toPcNext i).pc = s.pc + BitVec.ofNat 16 i.length := rfl
@[simp] theorem State.toPcNext_p (i : Instr) : (s.toPcNext i).p = s.p := rfl
@[simp] theorem State.toPcNext_cycles (i : Instr) : (s.toPcNext i).cycles = s.cycles := rfl
@[simp] theorem State.toPcNext_mem (i : Instr) : (s.toPcNext i).mem = s.mem := rfl
@[simp] theorem State.toPcNext_window (i : Instr) : (s.toPcNext i).window = s.window := rfl
@[simp] theorem State.toPcNext_cfg (i : Instr) : (s.toPcNext i).cfg = s.cfg := rfl

/-! ### `Flags.setNZ`, `Flags.afterShift`, `Flags.afterBit`, `Flags.compare` -/

variable (p : Flags)

@[simp] theorem Flags.setNZ_c (v : Byte) : (p.setNZ v).c = p.c := rfl
@[simp] theorem Flags.setNZ_z (v : Byte) : (p.setNZ v).z = (v == 0) := rfl
@[simp] theorem Flags.setNZ_i (v : Byte) : (p.setNZ v).i = p.i := rfl
@[simp] theorem Flags.setNZ_d (v : Byte) : (p.setNZ v).d = p.d := rfl
@[simp] theorem Flags.setNZ_b (v : Byte) : (p.setNZ v).b = p.b := rfl
@[simp] theorem Flags.setNZ_v (v : Byte) : (p.setNZ v).v = p.v := rfl
@[simp] theorem Flags.setNZ_n (v : Byte) : (p.setNZ v).n = v.getLsbD 7 := rfl

@[simp] theorem Flags.afterShift_c (r : Carried) : (p.afterShift r).c = r.carry := rfl
@[simp] theorem Flags.afterShift_z (r : Carried) : (p.afterShift r).z = (r.result == 0) := rfl
@[simp] theorem Flags.afterShift_i (r : Carried) : (p.afterShift r).i = p.i := rfl
@[simp] theorem Flags.afterShift_d (r : Carried) : (p.afterShift r).d = p.d := rfl
@[simp] theorem Flags.afterShift_b (r : Carried) : (p.afterShift r).b = p.b := rfl
@[simp] theorem Flags.afterShift_v (r : Carried) : (p.afterShift r).v = p.v := rfl
@[simp] theorem Flags.afterShift_n (r : Carried) : (p.afterShift r).n = r.result.getLsbD 7 := rfl

@[simp] theorem Flags.afterBit_c (a m : Byte) : (p.afterBit a m).c = p.c := rfl
@[simp] theorem Flags.afterBit_z (a m : Byte) : (p.afterBit a m).z = ((a &&& m) == 0) := rfl
@[simp] theorem Flags.afterBit_i (a m : Byte) : (p.afterBit a m).i = p.i := rfl
@[simp] theorem Flags.afterBit_d (a m : Byte) : (p.afterBit a m).d = p.d := rfl
@[simp] theorem Flags.afterBit_b (a m : Byte) : (p.afterBit a m).b = p.b := rfl
@[simp] theorem Flags.afterBit_v (a m : Byte) : (p.afterBit a m).v = m.getLsbD 6 := rfl
@[simp] theorem Flags.afterBit_n (a m : Byte) : (p.afterBit a m).n = m.getLsbD 7 := rfl

@[simp] theorem Flags.compare_c (r m : Byte) : (p.compare r m).c = decide (r.toNat ≥ m.toNat) := rfl
@[simp] theorem Flags.compare_z (r m : Byte) : (p.compare r m).z = ((r - m) == 0) := rfl
@[simp] theorem Flags.compare_i (r m : Byte) : (p.compare r m).i = p.i := rfl
@[simp] theorem Flags.compare_d (r m : Byte) : (p.compare r m).d = p.d := rfl
@[simp] theorem Flags.compare_b (r m : Byte) : (p.compare r m).b = p.b := rfl
@[simp] theorem Flags.compare_v (r m : Byte) : (p.compare r m).v = p.v := rfl
@[simp] theorem Flags.compare_n (r m : Byte) : (p.compare r m).n = (r - m).getLsbD 7 := rfl

end Sys2Proof.Machine
end

