-- ==== Sys2Proof/Laws/Forms.lean ====
section
/-! SUPPORT. What each shared form can do, said once: its next state where it has one, its answer where it has none, and that it
keeps the invariant. -/

namespace Sys2Proof.Machine

/-! ### The forms answer exactly one state -/

theorem complete_next {i : Instr} {pageCrossed : Bool} {branchPart : Nat} {s t : State}
    (h : complete i pageCrossed branchPart s = .next t) : t = s.charge (cost i pageCrossed branchPart) := by
  simpa [complete] using h.symm

theorem readForm_next {i : Instr} {o : ReadOperand} {op : Byte → State → State} {s t : State}
    (h : readForm i o op s = .next t) :
    t = (op (o.value s) (s.toPcNext i)).charge (cost i (o.pageCrossed s) 0) := complete_next h

theorem storeForm_next {i : Instr} {m : MemMode} {v : Byte} {s t : State} (h : storeForm i m v s = .next t) :
    t = ((s.toPcNext i).writeByte (m.ea s) v).charge (cost i (m.pageCrossed s) 0) := complete_next h

theorem rmwForm_next {i : Instr} {m : RmwMode} {f : Byte → Byte} {s t : State} (h : rmwForm i m f s = .next t) :
    t = (((s.toPcNext i).writeByte (m.ea s) (f (s.readByte (m.ea s)))).setNZ (f (s.readByte (m.ea s)))).charge
      (cost i (m.pageCrossed s) 0) := complete_next h

/-- A shift of the accumulator, or of the byte at EA: two cases, each with its one next state. -/
theorem shiftForm_next {i : Instr} {o : ShiftOperand} {f : Byte → Bool → Carried} {s t : State}
    (h : shiftForm i o f s = .next t) :
    (o = .accumulator ∧
      t = (((s.toPcNext i).setA (f s.a s.p.c).result).setP (s.p.afterShift (f s.a s.p.c))).charge (cost i false 0)) ∨
    (∃ m, o = .memory m ∧
      t = (((s.toPcNext i).writeByte (m.ea s) (f (s.readByte (m.ea s)) s.p.c).result).setP
        (s.p.afterShift (f (s.readByte (m.ea s)) s.p.c))).charge (cost i (m.pageCrossed s) 0)) := by
  cases o with
  | accumulator => exact .inl ⟨rfl, complete_next h⟩
  | memory m => exact .inr ⟨m, rfl, complete_next h⟩

theorem impliedForm_next {i : Instr} {op : State → State} {s t : State} (h : impliedForm i op s = .next t) :
    t = (op (s.toPcNext i)).charge (cost i false 0) := complete_next h

/-- A branch goes to its target where it is taken and to PCnext where it is not. -/
theorem branchForm_next {i : Instr} {taken : Bool} {b : Byte} {s t : State} (h : branchForm i taken b s = .next t) :
    (taken = true ∧ t = ((s.toPcNext i).setPc (branchTarget (s.toPcNext i).pc b)).charge
      (cost i false (branchPenalty true (branchTarget (s.toPcNext i).pc b) (s.toPcNext i).pc))) ∨
    (taken = false ∧ t = (s.toPcNext i).charge (cost i false 0)) := by
  cases taken with
  | true => exact .inl ⟨rfl, complete_next h⟩
  | false => exact .inr ⟨rfl, complete_next h⟩

/-- The meaning of an undefined opcode: one next state under nop1, the fault under `fault`. -/
theorem execUndefined_cases (op : Byte) (s : State) :
    (s.cfg.illegalOpcodePolicy = .nop1 ∧
      execUndefined op s = .next ((s.toPcNext (.undefined op)).charge (cost (.undefined op) false 0))) ∨
    (s.cfg.illegalOpcodePolicy = .fault ∧ execUndefined op s = .fault (.illegalOpcode op s.pc)) := by
  unfold execUndefined
  cases s.cfg.illegalOpcodePolicy with
  | nop1 => exact .inl ⟨rfl, rfl⟩
  | fault => exact .inr ⟨rfl, rfl⟩

/-! ### The stack operations -/

/-- A push changes one byte of page 1. -/
theorem State.readByte_push (s : State) (v : Byte) (w : Word) :
    (s.push v).readByte w = if w = stackAddr s.sp then v else s.readByte w := State.readByte_writeByte s _ v w

theorem State.pullByte_push (s : State) (v : Byte) : (s.push v).pullByte = v := by
  have h : (s.push v).sp + 1 = s.sp := by simp
  rw [State.pullByte, h, State.readByte_push, if_pos rfl]

/-- What a pull reads depends on memory and SP alone. -/
theorem State.pullByte_pulled (s : State) : s.pulled.pullByte = s.readByte (stackAddr (s.sp + 2)) := by
  rw [State.pullByte, State.pulled_sp, BitVec.add_assoc]
  rfl

/-- RTI restores P from the first byte above SP and PC from the next two, low byte first. -/
theorem State.returnFromInterrupt_eq (s : State) :
    s.returnFromInterrupt =
      { s with
        p := Flags.unpack s.pullByte
        sp := s.sp + 3
        pc := word (s.readByte (stackAddr (s.sp + 3))) (s.readByte (stackAddr (s.sp + 2))) } := by
  have h2 : s.sp + 1 + 1 = s.sp + 2 := by rw [BitVec.add_assoc]; rfl
  have h3 : s.sp + 2 + 1 = s.sp + 3 := by rw [BitVec.add_assoc]; rfl
  simp only [State.returnFromInterrupt, State.pullByte, State.pulled, State.setSp, State.setP, State.setPc, h2, h3]
  rfl

theorem State.wf_push {s : State} (h : s.mem.wf = true) (v : Byte) : (s.push v).mem.wf = true :=
  State.wf_writeByte h _ v

/-! ### The arithmetic of ADC and SBC -/

/-- ADC and SBC write A and the flags C, V, Z, N; D says which result they take. -/
theorem State.arithmetic_eq (s : State) (binary : AluSum) (decimal : Carried) :
    s.arithmetic binary decimal =
      { s with
        a := if s.p.d then decimal.result else binary.result
        p := { s.p with
          c := if s.p.d then decimal.carry else binary.carry
          v := binary.overflow
          z := (if s.p.d then decimal.result else binary.result) == 0
          n := (if s.p.d then decimal.result else binary.result).getLsbD 7 } } := by
  unfold State.arithmetic
  split <;> rfl

/-! ### The loader -/

theorem State.storeBytes_regs (s : State) (addr : Word) (program : List Byte) :
    s.storeBytes addr program = { s with mem := (s.storeBytes addr program).mem } := by
  induction program generalizing s addr with
  | nil => rfl
  | cons v rest ih => exact ih (s.writeByte addr v) (addr + 1)

theorem State.wf_storeBytes {s : State} (h : s.mem.wf = true) (addr : Word) (program : List Byte) :
    (s.storeBytes addr program).mem.wf = true := by
  induction program generalizing s addr with
  | nil => exact h
  | cons v rest ih => exact ih (State.wf_writeByte h addr v) (addr + 1)

/-- Loading answers the positioned state, or the refusal of a program that is too long. -/
theorem load_cases (entry : Word) (program : List Byte) (s : State) :
    (program.length ≤ s.cfg.maxProgramLength ∧ load entry program s = .next (s.position entry program)) ∨
    (s.cfg.maxProgramLength < program.length ∧
      load entry program s = .refused (.programTooLong program.length)) := by
  unfold load
  split
  · rename_i h; exact .inr ⟨h, rfl⟩
  · rename_i h; exact .inl ⟨by omega, rfl⟩

/-! ### A step -/

/-- A step is the core's step inside the window, and answers the same state outside it. -/
theorem step_cases (s : State) :
    (s.inWindow = true ∧ step s = exec s.fetch s) ∨ (s.inWindow = false ∧ step s = .next s) := by
  unfold step coreStep
  cases s.inWindow with
  | true => exact .inl ⟨rfl, rfl⟩
  | false => exact .inr ⟨rfl, rfl⟩

/-- One round of the loop: the halt, a step and the rest of the run, or the end that a fault or a refusal makes. -/
theorem runWindow_cases (fuel : Nat) (s : State) :
    (s.inWindow = false ∧ runWindow (fuel + 1) s = .halted s) ∨
    (s.inWindow = true ∧
      ((∃ t, step s = .next t ∧ runWindow (fuel + 1) s = runWindow fuel t) ∨
        (∃ r, step s = .fault r ∧ runWindow (fuel + 1) s = .faulted s r) ∨
        (∃ r, step s = .refused r ∧ runWindow (fuel + 1) s = .refused r))) := by
  cases hw : s.inWindow with
  | false => exact .inl ⟨rfl, by simp only [runWindow, hw, Bool.false_eq_true, if_false]⟩
  | true =>
    refine .inr ⟨rfl, ?_⟩
    cases hs : step s with
    | next t => exact .inl ⟨t, rfl, by simp only [runWindow, hw, if_true, hs]⟩
    | fault r => exact .inr (.inl ⟨r, rfl, by simp only [runWindow, hw, if_true, hs]⟩)
    | refused r => exact .inr (.inr ⟨r, rfl, by simp only [runWindow, hw, if_true, hs]⟩)

/-- The memory of a machine right after creation is in canonical form. -/
theorem State.reset_wf : State.reset.mem.wf = true := rfl

end Sys2Proof.Machine
end

