-- ==== Sys2Proof/Laws/PerInstr.lean ====
section
/-! SUPPORT. Statements about every instruction as syntax, one lemma per constructor. -/

namespace Sys2Proof.Laws.EncodeLength

/-- The encoding of an instruction, where it has one, is its opcode byte and as many operand bytes as its mode consumes:
its length, which is 1, 2 or 3 (spec 30_encoding.md R70). It has one exactly where the instruction is well-formed (R115). -/
def Statement (i : Instr) : Prop :=
  (∀ bytes, encode i = some bytes → bytes.length = i.length ∧ 1 ≤ i.length ∧ i.length ≤ 3) ∧
  ((encode i).isSome = i.wellFormed)

/-- The lengths of the parts give the length of the whole. -/
theorem of_operandBytes {i : Instr} (h : i.operandBytes.length = i.mode.operandBytes)
    (hw : i.opcode.isSome = i.wellFormed) : Statement i := by
  constructor
  · intro bytes hb
    obtain ⟨op, -, rfl⟩ := Option.map_eq_some_iff.1 hb
    have hm : i.mode.operandBytes ≤ 2 := by cases i.mode <;> decide
    simp only [Instr.length, List.length_cons, h]
    omega
  · simpa [encode] using hw

theorem lda (o : ReadOperand) : Statement (.lda o) := by
  rcases o with _ | m
  · exact of_operandBytes rfl rfl
  · cases m <;> exact of_operandBytes rfl rfl

theorem ldx (o : ReadOperand) : Statement (.ldx o) := by
  rcases o with _ | m
  · exact of_operandBytes rfl rfl
  · cases m <;> exact of_operandBytes rfl rfl

theorem ldy (o : ReadOperand) : Statement (.ldy o) := by
  rcases o with _ | m
  · exact of_operandBytes rfl rfl
  · cases m <;> exact of_operandBytes rfl rfl

theorem sta (m : MemMode) : Statement (.sta m) := by
  cases m <;> exact of_operandBytes rfl rfl

theorem stx (m : MemMode) : Statement (.stx m) := by
  cases m <;> exact of_operandBytes rfl rfl

theorem sty (m : MemMode) : Statement (.sty m) := by
  cases m <;> exact of_operandBytes rfl rfl

theorem and (o : ReadOperand) : Statement (.and o) := by
  rcases o with _ | m
  · exact of_operandBytes rfl rfl
  · cases m <;> exact of_operandBytes rfl rfl

theorem ora (o : ReadOperand) : Statement (.ora o) := by
  rcases o with _ | m
  · exact of_operandBytes rfl rfl
  · cases m <;> exact of_operandBytes rfl rfl

theorem eor (o : ReadOperand) : Statement (.eor o) := by
  rcases o with _ | m
  · exact of_operandBytes rfl rfl
  · cases m <;> exact of_operandBytes rfl rfl

theorem asl (o : ShiftOperand) : Statement (.asl o) := by
  rcases o with _ | m
  · exact of_operandBytes rfl rfl
  · cases m <;> exact of_operandBytes rfl rfl

theorem lsr (o : ShiftOperand) : Statement (.lsr o) := by
  rcases o with _ | m
  · exact of_operandBytes rfl rfl
  · cases m <;> exact of_operandBytes rfl rfl

theorem rol (o : ShiftOperand) : Statement (.rol o) := by
  rcases o with _ | m
  · exact of_operandBytes rfl rfl
  · cases m <;> exact of_operandBytes rfl rfl

theorem ror (o : ShiftOperand) : Statement (.ror o) := by
  rcases o with _ | m
  · exact of_operandBytes rfl rfl
  · cases m <;> exact of_operandBytes rfl rfl

theorem inc (m : RmwMode) : Statement (.inc m) := by
  cases m <;> exact of_operandBytes rfl rfl

theorem dec (m : RmwMode) : Statement (.dec m) := by
  cases m <;> exact of_operandBytes rfl rfl

theorem inx : Statement (.inx) := of_operandBytes rfl rfl

theorem iny : Statement (.iny) := of_operandBytes rfl rfl

theorem dex : Statement (.dex) := of_operandBytes rfl rfl

theorem dey : Statement (.dey) := of_operandBytes rfl rfl

theorem bit (m : MemMode) : Statement (.bit m) := by
  cases m <;> exact of_operandBytes rfl rfl

theorem adc (o : ReadOperand) : Statement (.adc o) := by
  rcases o with _ | m
  · exact of_operandBytes rfl rfl
  · cases m <;> exact of_operandBytes rfl rfl

theorem sbc (o : ReadOperand) : Statement (.sbc o) := by
  rcases o with _ | m
  · exact of_operandBytes rfl rfl
  · cases m <;> exact of_operandBytes rfl rfl

theorem cmp (o : ReadOperand) : Statement (.cmp o) := by
  rcases o with _ | m
  · exact of_operandBytes rfl rfl
  · cases m <;> exact of_operandBytes rfl rfl

theorem cpx (o : ReadOperand) : Statement (.cpx o) := by
  rcases o with _ | m
  · exact of_operandBytes rfl rfl
  · cases m <;> exact of_operandBytes rfl rfl

theorem cpy (o : ReadOperand) : Statement (.cpy o) := by
  rcases o with _ | m
  · exact of_operandBytes rfl rfl
  · cases m <;> exact of_operandBytes rfl rfl

theorem pha : Statement (.pha) := of_operandBytes rfl rfl

theorem pla : Statement (.pla) := of_operandBytes rfl rfl

theorem php : Statement (.php) := of_operandBytes rfl rfl

theorem plp : Statement (.plp) := of_operandBytes rfl rfl

theorem bpl (b : Byte) : Statement (.bpl b) := of_operandBytes rfl rfl

theorem bmi (b : Byte) : Statement (.bmi b) := of_operandBytes rfl rfl

theorem bvc (b : Byte) : Statement (.bvc b) := of_operandBytes rfl rfl

theorem bvs (b : Byte) : Statement (.bvs b) := of_operandBytes rfl rfl

theorem bcc (b : Byte) : Statement (.bcc b) := of_operandBytes rfl rfl

theorem bcs (b : Byte) : Statement (.bcs b) := of_operandBytes rfl rfl

theorem bne (b : Byte) : Statement (.bne b) := of_operandBytes rfl rfl

theorem beq (b : Byte) : Statement (.beq b) := of_operandBytes rfl rfl

theorem jmp (o : JumpOperand) : Statement (.jmp o) := by
  cases o <;> exact of_operandBytes rfl rfl

theorem jsr (target : Word) : Statement (.jsr target) := of_operandBytes rfl rfl

theorem rts : Statement (.rts) := of_operandBytes rfl rfl

theorem rti : Statement (.rti) := of_operandBytes rfl rfl

theorem brk : Statement (.brk) := of_operandBytes rfl rfl

theorem clc : Statement (.clc) := of_operandBytes rfl rfl

theorem sec : Statement (.sec) := of_operandBytes rfl rfl

theorem cli : Statement (.cli) := of_operandBytes rfl rfl

theorem sei : Statement (.sei) := of_operandBytes rfl rfl

theorem cld : Statement (.cld) := of_operandBytes rfl rfl

theorem sed : Statement (.sed) := of_operandBytes rfl rfl

theorem clv : Statement (.clv) := of_operandBytes rfl rfl

theorem tax : Statement (.tax) := of_operandBytes rfl rfl

theorem txa : Statement (.txa) := of_operandBytes rfl rfl

theorem tay : Statement (.tay) := of_operandBytes rfl rfl

theorem tya : Statement (.tya) := of_operandBytes rfl rfl

theorem tsx : Statement (.tsx) := of_operandBytes rfl rfl

theorem txs : Statement (.txs) := of_operandBytes rfl rfl

theorem nop : Statement (.nop) := of_operandBytes rfl rfl

theorem undefined (op : Byte) : Statement (.undefined op) :=
  of_operandBytes rfl (by simp only [Instr.opcode, Instr.wellFormed]; split <;> simp_all)

end Sys2Proof.Laws.EncodeLength
end

