-- ==== Sys2Proof/Tests/Slice0.lean ====
section
/-! SUPPORT. Tests: each expected value is from spec/ (a rule's example or corner case, or a row of 95_test_vectors.md,
named in a comment), and the witnesses that the statements' hypotheses can be met. -/

namespace Sys2Proof.Tests

open Sys2Proof Sys2Proof.Machine Sys2Proof.Claims

/-! ### Well-formedness: each check refuses an ill-formed term (40_addressing.md R115, 30_encoding.md R80) -/

theorem test_wellFormed_refuses_lda_zeroPageY : (Instr.lda (.memory (.zeroPageY 0x10))).wellFormed = false := by decide

theorem test_wellFormed_refuses_alu_zeroPageY :
    (Instr.and (.memory (.zeroPageY 0x10))).wellFormed = false ∧
    (Instr.ora (.memory (.zeroPageY 0x10))).wellFormed = false ∧
    (Instr.eor (.memory (.zeroPageY 0x10))).wellFormed = false ∧
    (Instr.adc (.memory (.zeroPageY 0x10))).wellFormed = false ∧
    (Instr.sbc (.memory (.zeroPageY 0x10))).wellFormed = false ∧
    (Instr.cmp (.memory (.zeroPageY 0x10))).wellFormed = false := by decide

theorem test_wellFormed_refuses_ldx_zeroPageX : (Instr.ldx (.memory (.zeroPageX 0x10))).wellFormed = false := by decide

theorem test_wellFormed_refuses_ldy_zeroPageY : (Instr.ldy (.memory (.zeroPageY 0x10))).wellFormed = false := by decide

theorem test_wellFormed_refuses_cpx_absoluteX : (Instr.cpx (.memory (.absoluteX 0x1234))).wellFormed = false := by decide

theorem test_wellFormed_refuses_cpy_zeroPageX : (Instr.cpy (.memory (.zeroPageX 0x10))).wellFormed = false := by decide

theorem test_wellFormed_refuses_sta_zeroPageY : (Instr.sta (.zeroPageY 0x10)).wellFormed = false := by decide

theorem test_wellFormed_refuses_stx_absoluteY : (Instr.stx (.absoluteY 0x1234)).wellFormed = false := by decide

theorem test_wellFormed_refuses_sty_zeroPageY : (Instr.sty (.zeroPageY 0x10)).wellFormed = false := by decide

theorem test_wellFormed_refuses_bit_zeroPageX : (Instr.bit (.zeroPageX 0x10)).wellFormed = false := by decide

theorem test_wellFormed_refuses_defined_opcode : (Instr.undefined 0xA9).wellFormed = false := by decide

theorem test_encode_refuses_ill_formed : encode (.sta (.zeroPageY 0x10)) = none := by decide

/-! ### Decoding: the words of the Encoding lines, written out -/

/-- 41_load_store.md R130 to R137. -/
theorem test_decode_load_store :
    decodeBytes [0xB1, 0x20] = .ok (.lda (.memory (.indirectY 0x20)), []) ∧
    decodeBytes [0xBE, 0x34, 0x12] = .ok (.ldx (.memory (.absoluteY 0x1234)), []) ∧
    decodeBytes [0xBC, 0x34, 0x12] = .ok (.ldy (.memory (.absoluteX 0x1234)), []) ∧
    decodeBytes [0x9D, 0xFF, 0x12] = .ok (.sta (.absoluteX 0x12FF), []) ∧
    decodeBytes [0x96, 0x02] = .ok (.stx (.zeroPageY 0x02), []) ∧
    decodeBytes [0x8C, 0x34, 0x12] = .ok (.sty (.absolute 0x1234), []) := by decide +kernel

/-- 42_logical_shift_incdec_bit.md R150 to R168. -/
theorem test_decode_logic :
    decodeBytes [0x29, 0x3C] = .ok (.and (.immediate 0x3C), []) ∧
    decodeBytes [0x09, 0x80] = .ok (.ora (.immediate 0x80), []) ∧
    decodeBytes [0x45, 0x10] = .ok (.eor (.memory (.zeroPage 0x10)), []) ∧
    decodeBytes [0x1E, 0x34, 0x12] = .ok (.asl (.memory (.absoluteX 0x1234)), []) ∧
    decodeBytes [0x46, 0x10] = .ok (.lsr (.memory (.zeroPage 0x10)), []) ∧
    decodeBytes [0x36, 0x10] = .ok (.rol (.memory (.zeroPageX 0x10)), []) ∧
    decodeBytes [0x6A] = .ok (.ror .accumulator, []) ∧
    decodeBytes [0xE6, 0x10] = .ok (.inc (.zeroPage 0x10), []) ∧
    decodeBytes [0xCE, 0x34, 0x12] = .ok (.dec (.absolute 0x1234), []) ∧
    decodeBytes [0xE8] = .ok (.inx, []) ∧ decodeBytes [0xC8] = .ok (.iny, []) ∧
    decodeBytes [0xCA] = .ok (.dex, []) ∧ decodeBytes [0x88] = .ok (.dey, []) ∧
    decodeBytes [0x2C, 0x34, 0x12] = .ok (.bit (.absolute 0x1234), []) := ⟨rfl, rfl, rfl, rfl, rfl, rfl, rfl, rfl, rfl, rfl, rfl, rfl, rfl, rfl⟩

/-- 43_arithmetic_compare.md R185 to R192. -/
theorem test_decode_arith :
    decodeBytes [0x69, 0x92] = .ok (.adc (.immediate 0x92), []) ∧
    decodeBytes [0xE1, 0x40] = .ok (.sbc (.memory (.indirectX 0x40)), []) ∧
    decodeBytes [0xD9, 0x34, 0x12] = .ok (.cmp (.memory (.absoluteY 0x1234)), []) ∧
    decodeBytes [0xE0, 0x05] = .ok (.cpx (.immediate 0x05), []) ∧
    decodeBytes [0xCC, 0x00, 0x03] = .ok (.cpy (.memory (.absolute 0x0300)), []) := by decide +kernel

/-- 44_stack.md R210 to R213. -/
theorem test_decode_stack :
    decodeBytes [0x48] = .ok (.pha, []) ∧ decodeBytes [0x68] = .ok (.pla, []) ∧
    decodeBytes [0x08] = .ok (.php, []) ∧ decodeBytes [0x28] = .ok (.plp, []) := by decide +kernel

/-- 45_control.md R231 to R252. -/
theorem test_decode_control :
    decodeBytes [0x10, 0x02] = .ok (.bpl 0x02, []) ∧ decodeBytes [0x30, 0x02] = .ok (.bmi 0x02, []) ∧
    decodeBytes [0x50, 0xFE] = .ok (.bvc 0xFE, []) ∧ decodeBytes [0x70, 0x10] = .ok (.bvs 0x10, []) ∧
    decodeBytes [0x90, 0x05] = .ok (.bcc 0x05, []) ∧ decodeBytes [0xB0, 0x80] = .ok (.bcs 0x80, []) ∧
    decodeBytes [0xD0, 0xFC] = .ok (.bne 0xFC, []) ∧ decodeBytes [0xF0, 0x7F] = .ok (.beq 0x7F, []) ∧
    decodeBytes [0x4C, 0x00, 0x07] = .ok (.jmp (.absolute 0x0700), []) ∧
    decodeBytes [0x6C, 0x20, 0x01] = .ok (.jmp (.indirect 0x0120), []) ∧
    decodeBytes [0x20, 0x10, 0x06] = .ok (.jsr 0x0610, []) ∧
    decodeBytes [0x60] = .ok (.rts, []) ∧ decodeBytes [0x40] = .ok (.rti, []) ∧
    decodeBytes [0x00] = .ok (.brk, []) := ⟨rfl, rfl, rfl, rfl, rfl, rfl, rfl, rfl, rfl, rfl, rfl, rfl, rfl, rfl⟩

/-- 46_flags_transfers_nop.md R260 to R280. -/
theorem test_decode_flags_transfers :
    decodeBytes [0x18] = .ok (.clc, []) ∧ decodeBytes [0x38] = .ok (.sec, []) ∧
    decodeBytes [0x58] = .ok (.cli, []) ∧ decodeBytes [0x78] = .ok (.sei, []) ∧
    decodeBytes [0xD8] = .ok (.cld, []) ∧ decodeBytes [0xF8] = .ok (.sed, []) ∧
    decodeBytes [0xB8] = .ok (.clv, []) ∧
    decodeBytes [0xAA] = .ok (.tax, []) ∧ decodeBytes [0x8A] = .ok (.txa, []) ∧
    decodeBytes [0xA8] = .ok (.tay, []) ∧ decodeBytes [0x98] = .ok (.tya, []) ∧
    decodeBytes [0xBA] = .ok (.tsx, []) ∧ decodeBytes [0x9A] = .ok (.txs, []) ∧
    decodeBytes [0xEA] = .ok (.nop, []) ∧ decodeBytes [0x02] = .ok (.undefined 0x02, []) := ⟨rfl, rfl, rfl, rfl, rfl, rfl, rfl, rfl, rfl, rfl, rfl, rfl, rfl, rfl, rfl⟩

/-- 30_encoding.md R80, R73: the bytes that decode as undefined are exactly the 105 listed. -/
theorem test_decode_undefined_bytes :
    ((List.range 256).filter fun n => decide (decode (BitVec.ofNat 8 n) 0 0 = .undefined (BitVec.ofNat 8 n))) =
      undefinedOpcodes.map BitVec.toNat := by decide +kernel

theorem test_decode_rejects_missing_bytes :
    decodeBytes [] = .error .empty ∧ decodeBytes [0xA9] = .error (.truncated 0xA9) ∧
    decodeBytes [0x4C, 0x00] = .error (.truncated 0x4C) := by decide +kernel

/-! ### The host's two questions -/

theorem test_decodeTableWord :
    decodeTableWord 16 0x42A9 = some (.lda (.immediate 0x42)) ∧
    decodeTableWord 24 0x1234AD = some (.lda (.memory (.absolute 0x1234))) ∧
    decodeTableWord 8 0x4C = some (.jmp (.absolute 0x0000)) ∧
    decodeTableWord 8 0xFF = some (.undefined 0xFF) := by decide +kernel

theorem test_withFetchWord_runs_first :
    step (State.reset.withFetchWord 16 0x42A9) =
      .next { State.reset.withFetchWord 16 0x42A9 with a := 0x42, pc := 0x0002, cycles := 2 } := rfl

/-! ### One step per row of 95_test_vectors.md, section L2 -/

/-- The registers of a test row; what a row does not name is as in a fresh instance (10_state.md R46), `p` packed. -/
structure Regs where
  a : Byte := 0x00
  x : Byte := 0x00
  y : Byte := 0x00
  sp : Byte := 0xFF
  p : Byte := 0x20

/-- A fresh instance with the seeds in memory, the code loaded at its address and the registers of the row. -/
def start (addr : Word) (code : List Byte) (r : Regs) (seeds : List (Word × Byte)) : State :=
  let s := (seeds.foldl (fun s c => s.seed c.1 c.2) State.reset).position addr code
  { s with a := r.a, x := r.x, y := r.y, sp := r.sp, p := Flags.unpack r.p }

/-- The same state under `INDY_POINTER_WRAP = linear`. -/
def linear (s : State) : State := { s with cfg := { s.cfg with indyPointerWrap := .linear } }

/-- The same state under `ILLEGAL_OPCODE_POLICY = fault`. -/
def faulting (s : State) : State := { s with cfg := { s.cfg with illegalOpcodePolicy := .fault } }

/-- The step from `s` answers a state with these registers, PC, Cycles and memory bytes. -/
def answers (s : State) (r : Regs) (pc : Word) (cycles : CycleCount) (cells : List (Word × Byte)) : Bool :=
  match step s with
  | .next t =>
    t.a == r.a && t.x == r.x && t.y == r.y && t.sp == r.sp && t.p.pack == r.p && t.pc == pc && t.cycles == cycles &&
      cells.all fun c => t.readByte c.1 == c.2
  | .fault _ => false
  | .refused _ => false

theorem test_lda_flags :
    -- LS1: LDA #0 sets Z, clears N
    answers (start 0x0600 [0xA9, 0x00] { p := 0xA0 } [])
      { p := 0x22 } 0x0602 2 [] = true ∧
    -- LS2: LDA #$80 sets N
    answers (start 0x0600 [0xA9, 0x80] { p := 0x22 } [])
      { a := 0x80, p := 0xA0 } 0x0602 2 [] = true ∧
    -- LS3: LDA # does not touch C, V
    answers (start 0x0600 [0xA9, 0x7F] { p := 0x61 } [])
      { a := 0x7F, p := 0x61 } 0x0602 2 [] = true := by decide +kernel

theorem test_lda_modes :
    -- M1: ZeroPageX wraps in page 0 (source $FB,X)
    answers (start 0x0600 [0xB5, 0xFB] { x := 0x08 } [(0x0003, 0x5A), (0x0103, 0x77)])
      { a := 0x5A, x := 0x08 } 0x0602 4 [] = true ∧
    -- M3: AbsoluteX, no page cross
    answers (start 0x0600 [0xBD, 0x34, 0x12] { x := 0x01 } [(0x1235, 0x22)])
      { a := 0x22, x := 0x01 } 0x0603 4 [] = true ∧
    -- M4: AbsoluteX crosses page (+1)
    answers (start 0x0600 [0xBD, 0xFF, 0x12] { x := 0x01 } [(0x1300, 0x33)])
      { a := 0x33, x := 0x01 } 0x0603 5 [] = true ∧
    -- M5: AbsoluteY wraps at 0xFFFF
    answers (start 0x0600 [0xB9, 0xFF, 0xFF] { y := 0x01 } [(0x0000, 0x44)])
      { a := 0x44, y := 0x01 } 0x0603 5 [] = true ∧
    -- M6: IndirectX pointer wraps in page 0
    answers (start 0x0600 [0xA1, 0xFE] { x := 0x01 } [(0x00FF, 0x00), (0x0000, 0x20), (0x2000, 0x66)])
      { a := 0x66, x := 0x01 } 0x0602 6 [] = true ∧
    -- M7: IndirectY, page cross (+1)
    answers (start 0x0600 [0xB1, 0x20] { y := 0x20 } [(0x0020, 0xF0), (0x0021, 0x12), (0x1310, 0x42)])
      { a := 0x42, y := 0x20 } 0x0602 6 [] = true ∧
    -- M8: IndirectY pointer at 0xFF, INDY_POINTER_WRAP=zero_page
    answers (start 0x0600 [0xB1, 0xFF] {} [(0x00FF, 0x00), (0x0000, 0x30), (0x0100, 0x31), (0x3000, 0x0A), (0x3100, 0x0B)])
      { a := 0x0A } 0x0602 5 [] = true ∧
    -- M9: IndirectY pointer at 0xFF, INDY_POINTER_WRAP=linear
    answers (linear (start 0x0600 [0xB1, 0xFF] {} [(0x00FF, 0x00), (0x0000, 0x30), (0x0100, 0x31), (0x3000, 0x0A), (0x3100, 0x0B)]))
      { a := 0x0B } 0x0602 5 [] = true := by decide +kernel

theorem test_ldx :
    -- M2: ZeroPageY wraps
    answers (start 0x0600 [0xB6, 0xFF] { y := 0x02 } [(0x0001, 0x11)])
      { x := 0x11, y := 0x02 } 0x0602 4 [] = true ∧
    -- LS4: LDX ZeroPageY
    answers (start 0x0600 [0xB6, 0x10] { y := 0x05 } [(0x0015, 0xFE)])
      { x := 0xFE, y := 0x05, p := 0xA0 } 0x0602 4 [] = true := by decide +kernel

theorem test_ldy :
    -- LS5: LDY Absolute
    answers (start 0x0600 [0xAC, 0x00, 0x03] {} [(0x0300, 0x00)])
      { p := 0x22 } 0x0603 4 [] = true := by decide +kernel

theorem test_sta :
    -- LS6: STA changes no flag
    answers (start 0x0600 [0x85, 0x40] { p := 0xA0 } [])
      { p := 0xA0 } 0x0602 3 [] = true ∧
    -- M11: STA AbsoluteX crossing page pays no penalty
    answers (start 0x0600 [0x9D, 0xFF, 0x12] { a := 0x99, x := 0x01 } [])
      { a := 0x99, x := 0x01 } 0x0603 5 [(0x1300, 0x99)] = true := by decide +kernel

theorem test_stx :
    -- LS7: STX ZeroPageY wraps
    answers (start 0x0600 [0x96, 0xFF] { x := 0xAB, y := 0x01 } [])
      { x := 0xAB, y := 0x01 } 0x0602 4 [(0x0000, 0xAB)] = true := by decide +kernel

theorem test_sty :
    -- LS8: STY Absolute
    answers (start 0x0600 [0x8C, 0x34, 0x12] { y := 0x7E } [])
      { y := 0x7E } 0x0603 4 [(0x1234, 0x7E)] = true := by decide +kernel

theorem test_and :
    -- LG1: AND to zero
    answers (start 0x0600 [0x29, 0x0F] { a := 0xF0 } [])
      { p := 0x22 } 0x0602 2 [] = true := by decide +kernel

theorem test_ora :
    -- LG2: ORA sets N
    answers (start 0x0600 [0x09, 0x80] { a := 0x01 } [])
      { a := 0x81, p := 0xA0 } 0x0602 2 [] = true := by decide +kernel

theorem test_eor :
    -- LG3: EOR with itself
    answers (start 0x0600 [0x45, 0x10] { a := 0x5A } [(0x0010, 0x5A)])
      { p := 0x22 } 0x0602 3 [] = true := by decide +kernel

theorem test_asl :
    -- LG4: ASL A, bit 7 to C
    answers (start 0x0600 [0x0A] { a := 0x81 } [])
      { a := 0x02, p := 0x21 } 0x0601 2 [] = true ∧
    -- LG8: ASL memory (RMW)
    answers (start 0x0600 [0x06, 0x10] {} [(0x0010, 0x40)])
      { p := 0xA0 } 0x0602 5 [(0x0010, 0x80)] = true := by decide +kernel

theorem test_lsr :
    -- LG5: LSR A to zero
    answers (start 0x0600 [0x4A] { a := 0x01, p := 0xA0 } [])
      { p := 0x23 } 0x0601 2 [] = true := by decide +kernel

theorem test_rol :
    -- LG6: ROL A with C=1
    answers (start 0x0600 [0x2A] { a := 0x80, p := 0x21 } [])
      { a := 0x01, p := 0x21 } 0x0601 2 [] = true := by decide +kernel

theorem test_ror :
    -- LG7: ROR A with C=1
    answers (start 0x0600 [0x6A] { a := 0x01, p := 0x21 } [])
      { a := 0x80, p := 0xA1 } 0x0601 2 [] = true ∧
    -- LG9: ROR memory AbsoluteX
    answers (start 0x0600 [0x7E, 0x00, 0x02] { x := 0x02 } [(0x0202, 0x03)])
      { x := 0x02, p := 0x21 } 0x0603 7 [(0x0202, 0x01)] = true := by decide +kernel

theorem test_inc :
    -- LG10: INC memory wraps 0xFF to 0x00
    answers (start 0x0600 [0xE6, 0x10] {} [(0x0010, 0xFF)])
      { p := 0x22 } 0x0602 5 [(0x0010, 0x00)] = true ∧
    -- LG14: INC ignores D
    answers (start 0x0600 [0xE6, 0x10] { p := 0x28 } [(0x0010, 0x09)])
      { p := 0x28 } 0x0602 5 [(0x0010, 0x0A)] = true := by decide +kernel

theorem test_dec :
    -- LG11: DEC memory 0x00 to 0xFF
    answers (start 0x0600 [0xC6, 0x10] {} [(0x0010, 0x00)])
      { p := 0xA0 } 0x0602 5 [(0x0010, 0xFF)] = true := by decide +kernel

theorem test_inx :
    -- LG12: INX wraps
    answers (start 0x0600 [0xE8] { x := 0xFF } [])
      { p := 0x22 } 0x0601 2 [] = true := by decide +kernel

theorem test_dey :
    -- LG13: DEY to 0x7F clears N
    answers (start 0x0600 [0x88] { y := 0x80, p := 0xA0 } [])
      { y := 0x7F } 0x0601 2 [] = true := by decide +kernel

theorem test_bit :
    -- LG15: BIT: Z from A&m, N,V from m
    answers (start 0x0600 [0x24, 0x10] { a := 0x0F } [(0x0010, 0xC0)])
      { a := 0x0F, p := 0xE2 } 0x0602 3 [] = true ∧
    -- LG16: BIT Absolute, nonzero and
    answers (start 0x0600 [0x2C, 0x34, 0x12] { a := 0x01, p := 0xE2 } [(0x1234, 0x01)])
      { a := 0x01 } 0x0603 4 [] = true := by decide +kernel

theorem test_adc_binary :
    -- AR1: ADC binary signed overflow (source)
    answers (start 0x0600 [0x69, 0x01] { a := 0x7F } [])
      { a := 0x80, p := 0xE0 } 0x0602 2 [] = true ∧
    -- AR2: ADC binary unsigned carry
    answers (start 0x0600 [0x69, 0x01] { a := 0xFF } [])
      { p := 0x23 } 0x0602 2 [] = true ∧
    -- AR3: ADC 0x80+0x80
    answers (start 0x0600 [0x69, 0x80] { a := 0x80 } [])
      { p := 0x63 } 0x0602 2 [] = true ∧
    -- AR4: ADC with C=1, 0xFF+0xFF
    answers (start 0x0600 [0x69, 0xFF] { a := 0xFF, p := 0x21 } [])
      { a := 0xFF, p := 0xA1 } 0x0602 2 [] = true ∧
    -- AR15: ADC IndirectY page cross (+1)
    answers (start 0x0600 [0x71, 0x40] { a := 0x01, y := 0x01 } [(0x0040, 0xFF), (0x0041, 0x20), (0x2100, 0x02)])
      { a := 0x03, y := 0x01 } 0x0602 6 [] = true := by decide +kernel

theorem test_adc_decimal :
    -- AR5: ADC decimal (source fixture)
    answers (start 0x0600 [0x69, 0x92] { a := 0x81, p := 0x28 } [])
      { a := 0x73, p := 0x69 } 0x0602 2 [] = true ∧
    -- AR6: ADC decimal 99+01
    answers (start 0x0600 [0x69, 0x01] { a := 0x99, p := 0x28 } [])
      { p := 0x2B } 0x0602 2 [] = true ∧
    -- AR7: ADC decimal 58+46+1
    answers (start 0x0600 [0x69, 0x46] { a := 0x58, p := 0x29 } [])
      { a := 0x05, p := 0x69 } 0x0602 2 [] = true ∧
    -- AR8: ADC decimal non-BCD 0F+00
    answers (start 0x0600 [0x69, 0x00] { a := 0x0F, p := 0x28 } [])
      { a := 0x15, p := 0x28 } 0x0602 2 [] = true := by decide +kernel

theorem test_sbc_binary :
    -- AR9: SBC binary 0-1 borrow
    answers (start 0x0600 [0xE9, 0x01] { p := 0x21 } [])
      { a := 0xFF, p := 0xA0 } 0x0602 2 [] = true ∧
    -- AR10: SBC binary signed overflow
    answers (start 0x0600 [0xE9, 0x01] { a := 0x80, p := 0x21 } [])
      { a := 0x7F, p := 0x61 } 0x0602 2 [] = true ∧
    -- AR11: SBC with C=0 subtracts one more
    answers (start 0x0600 [0xE9, 0x00] { a := 0x10 } [])
      { a := 0x0F, p := 0x21 } 0x0602 2 [] = true := by decide +kernel

theorem test_sbc_decimal :
    -- AR12: SBC decimal 00-01
    answers (start 0x0600 [0xE9, 0x01] { p := 0x29 } [])
      { a := 0x99, p := 0xA8 } 0x0602 2 [] = true ∧
    -- AR13: SBC decimal 21-34
    answers (start 0x0600 [0xE9, 0x34] { a := 0x21, p := 0x29 } [])
      { a := 0x87, p := 0xA8 } 0x0602 2 [] = true ∧
    -- AR14: SBC decimal 46-12
    answers (start 0x0600 [0xE9, 0x12] { a := 0x46, p := 0x29 } [])
      { a := 0x34, p := 0x29 } 0x0602 2 [] = true := by decide +kernel

theorem test_cmp :
    -- AR16: CMP equal
    answers (start 0x0600 [0xC9, 0x40] { a := 0x40 } [])
      { a := 0x40, p := 0x23 } 0x0602 2 [] = true ∧
    -- AR17: CMP less (unsigned)
    answers (start 0x0600 [0xC9, 0x01] {} [])
      { p := 0xA0 } 0x0602 2 [] = true ∧
    -- AR18: CMP 0x80 vs 0x00
    answers (start 0x0600 [0xC9, 0x00] { a := 0x80 } [])
      { a := 0x80, p := 0xA1 } 0x0602 2 [] = true ∧
    -- AR19: CMP ignores D
    answers (start 0x0600 [0xC9, 0x09] { a := 0x10, p := 0x28 } [])
      { a := 0x10, p := 0x29 } 0x0602 2 [] = true := by decide +kernel

theorem test_cpx :
    -- AR20: CPX ZeroPage
    answers (start 0x0600 [0xE4, 0x10] { x := 0x05 } [(0x0010, 0x05)])
      { x := 0x05, p := 0x23 } 0x0602 3 [] = true := by decide +kernel

theorem test_cpy :
    -- AR21: CPY Absolute greater
    answers (start 0x0600 [0xCC, 0x00, 0x03] { y := 0x10 } [(0x0300, 0x01)])
      { y := 0x10, p := 0x21 } 0x0603 4 [] = true := by decide +kernel

theorem test_pha :
    -- ST1: PHA at SP=FF
    answers (start 0x0600 [0x48] { a := 0x3C } [])
      { a := 0x3C, sp := 0xFE } 0x0601 3 [(0x01FF, 0x3C)] = true ∧
    -- ST2: PHA with SP=00 wraps to FF
    answers (start 0x0600 [0x48] { a := 0x3C, sp := 0x00 } [])
      { a := 0x3C } 0x0601 3 [(0x0100, 0x3C)] = true := by decide +kernel

theorem test_pla :
    -- ST3: PLA sets N and Z
    answers (start 0x0600 [0x68] { sp := 0xFE } [(0x01FF, 0x80)])
      { a := 0x80, p := 0xA0 } 0x0601 4 [] = true ∧
    -- ST4: PLA with SP=FF wraps to 00
    answers (start 0x0600 [0x68] {} [(0x0100, 0x00)])
      { sp := 0x00, p := 0x22 } 0x0601 4 [] = true := by decide +kernel

theorem test_php :
    -- ST5: PHP pushes packed P, bit 5 set, stored B
    answers (start 0x0600 [0x08] { p := 0x23 } [])
      { sp := 0xFE, p := 0x23 } 0x0601 3 [(0x01FF, 0x23)] = true ∧
    -- ST6: PHP with B=1
    answers (start 0x0600 [0x08] { p := 0xB0 } [])
      { sp := 0xFE, p := 0xB0 } 0x0601 3 [(0x01FF, 0xB0)] = true := by decide +kernel

theorem test_plp :
    -- ST7: PLP loads every stored flag, ignores bit 5
    answers (start 0x0600 [0x28] { sp := 0xFE } [(0x01FF, 0xDF)])
      { p := 0xFF } 0x0601 4 [] = true := by decide +kernel

theorem test_bne :
    -- CT1: BNE taken, same page
    answers (start 0x0600 [0xD0, 0x02] {} [])
      {} 0x0604 3 [] = true ∧
    -- CT2: BNE not taken
    answers (start 0x0600 [0xD0, 0x02] { p := 0x22 } [])
      { p := 0x22 } 0x0602 2 [] = true := by decide +kernel

theorem test_beq :
    -- CT3: BEQ taken backward
    answers (start 0x0600 [0xF0, 0xFC] { p := 0x22 } [])
      { p := 0x22 } 0x05FE 4 [] = true := by decide +kernel

theorem test_bcc :
    -- CT4: BCC taken crossing page
    answers (start 0x06F0 [0x90, 0x7F] {} [])
      {} 0x0771 4 [] = true := by decide +kernel

theorem test_bcs :
    -- CT5: BCS taken back across page
    answers (start 0x0610 [0xB0, 0x80] { p := 0x21 } [])
      { p := 0x21 } 0x0592 4 [] = true := by decide +kernel

theorem test_bmi :
    -- CT6: BMI taken
    answers (start 0x0600 [0x30, 0x10] { p := 0xA0 } [])
      { p := 0xA0 } 0x0612 3 [] = true := by decide +kernel

theorem test_bpl :
    -- CT7: BPL not taken
    answers (start 0x0600 [0x10, 0x10] { p := 0xA0 } [])
      { p := 0xA0 } 0x0602 2 [] = true := by decide +kernel

theorem test_bvs :
    -- CT8: BVS taken
    answers (start 0x0600 [0x70, 0x00] { p := 0x60 } [])
      { p := 0x60 } 0x0602 3 [] = true := by decide +kernel

theorem test_bvc :
    -- CT9: BVC branch to itself
    answers (start 0x0600 [0x50, 0xFE] {} [])
      {} 0x0600 3 [] = true := by decide +kernel

theorem test_jmp :
    -- CT10: JMP absolute
    answers (start 0x0600 [0x4C, 0x00, 0x80] {} [])
      {} 0x8000 3 [] = true ∧
    -- M10: JMP indirect page-wrap defect (source $15FF)
    answers (start 0x0600 [0x6C, 0xFF, 0x15] {} [(0x15FF, 0x00), (0x1500, 0x07), (0x1600, 0x06)])
      {} 0x0700 5 [] = true := by decide +kernel

theorem test_jsr :
    -- CT11: JSR pushes PC0+2
    answers (start 0x0600 [0x20, 0x10, 0x06] {} [])
      { sp := 0xFD } 0x0610 6 [(0x01FE, 0x02), (0x01FF, 0x06)] = true ∧
    -- CT16: JSR with SP=00 wraps
    answers (start 0x0600 [0x20, 0x00, 0x07] { sp := 0x00 } [])
      { sp := 0xFE } 0x0700 6 [(0x0100, 0x06), (0x01FF, 0x02)] = true := by decide +kernel

theorem test_rts :
    -- CT12: RTS pulls and adds 1
    answers (start 0x0610 [0x60] { sp := 0xFD } [(0x01FE, 0x02), (0x01FF, 0x06)])
      {} 0x0603 6 [] = true := by decide +kernel

theorem test_rti :
    -- CT13: RTI pulls P, PCL, PCH (no +1)
    answers (start 0x0600 [0x40] { sp := 0xFC } [(0x01FD, 0xC3), (0x01FE, 0x34), (0x01FF, 0x12)])
      { p := 0xE3 } 0x1234 6 [] = true ∧
    -- CT14: RTI restores I from the byte
    answers (start 0x0600 [0x40] { sp := 0xFC } [(0x01FD, 0x04), (0x01FE, 0x00), (0x01FF, 0x07)])
      { p := 0x24 } 0x0700 6 [] = true := by decide +kernel

theorem test_brk :
    -- CT15: BRK: PC+1, 7 cycles, nothing else
    answers (start 0x0600 [0x00] { a := 0x11, sp := 0xF0 } [])
      { a := 0x11, sp := 0xF0 } 0x0601 7 [] = true := by decide +kernel

theorem test_sec :
    -- FT1: SEC
    answers (start 0x0600 [0x38] {} [])
      { p := 0x21 } 0x0601 2 [] = true := by decide +kernel

theorem test_clc :
    -- FT2: CLC
    answers (start 0x0600 [0x18] { p := 0x21 } [])
      {} 0x0601 2 [] = true := by decide +kernel

theorem test_sei :
    -- FT3: SEI
    answers (start 0x0600 [0x78] {} [])
      { p := 0x24 } 0x0601 2 [] = true := by decide +kernel

theorem test_cli :
    -- FT4: CLI
    answers (start 0x0600 [0x58] { p := 0x24 } [])
      {} 0x0601 2 [] = true := by decide +kernel

theorem test_sed :
    -- FT5: SED
    answers (start 0x0600 [0xF8] {} [])
      { p := 0x28 } 0x0601 2 [] = true := by decide +kernel

theorem test_cld :
    -- FT6: CLD
    answers (start 0x0600 [0xD8] { p := 0x28 } [])
      {} 0x0601 2 [] = true := by decide +kernel

theorem test_clv :
    -- FT7: CLV
    answers (start 0x0600 [0xB8] { p := 0x60 } [])
      {} 0x0601 2 [] = true := by decide +kernel

theorem test_tax :
    -- FT8: TAX zero
    answers (start 0x0600 [0xAA] { x := 0x55 } [])
      { p := 0x22 } 0x0601 2 [] = true := by decide +kernel

theorem test_tay :
    -- FT9: TAY negative
    answers (start 0x0600 [0xA8] { a := 0x90 } [])
      { a := 0x90, y := 0x90, p := 0xA0 } 0x0601 2 [] = true := by decide +kernel

theorem test_txa :
    -- FT10: TXA
    answers (start 0x0600 [0x8A] { a := 0x80, x := 0x01, p := 0xA0 } [])
      { a := 0x01, x := 0x01 } 0x0601 2 [] = true := by decide +kernel

theorem test_tya :
    -- FT11: TYA
    answers (start 0x0600 [0x98] { y := 0xFF } [])
      { a := 0xFF, y := 0xFF, p := 0xA0 } 0x0601 2 [] = true := by decide +kernel

theorem test_tsx :
    -- FT12: TSX
    answers (start 0x0600 [0xBA] { sp := 0xFD } [])
      { x := 0xFD, sp := 0xFD, p := 0xA0 } 0x0601 2 [] = true := by decide +kernel

theorem test_txs :
    -- FT13: TXS sets no flag
    answers (start 0x0600 [0x9A] {} [])
      { sp := 0x00 } 0x0601 2 [] = true := by decide +kernel

theorem test_nop :
    -- FT14: NOP
    answers (start 0x0600 [0xEA] {} [])
      {} 0x0601 2 [] = true := by decide +kernel

theorem test_iny_example :
    -- 42_logical_shift_incdec_bit.md R163, corner case
    answers (start 0x0600 [0xC8] { y := 0xFF } []) { y := 0x00, p := 0x22 } 0x0601 2 [] = true := by decide +kernel

theorem test_dex_example :
    -- 42_logical_shift_incdec_bit.md R164, corner case
    answers (start 0x0600 [0xCA] { x := 0x00 } []) { x := 0xFF, p := 0xA0 } 0x0601 2 [] = true := by decide +kernel

theorem test_undefined :
    -- FT15, FT16
    answers (start 0x0600 [0x02] {} []) {} 0x0601 2 [] = true ∧
    answers (start 0x0600 [0xFF] { a := 0x12 } []) { a := 0x12 } 0x0601 2 [] = true := by decide +kernel

theorem test_undefined_fault :
    -- the note after FT16
    step (faulting (start 0x0600 [0x02] {} [])) = .fault (.illegalOpcode 0x02 0x0600) := rfl

theorem test_halt_outside_window :
    -- X2: an empty program halts before any instruction
    execute 3 0x0600 [] State.reset = .halted { State.reset with pc := 0x0600, window := { entry := 0x0600, length := 0 } } := rfl

theorem test_operand_bytes_wrap :
    -- 40_addressing.md R106: an opcode at 0xFFFE has its operand bytes at 0xFFFF and 0x0000
    answers (start 0xFFFE [0xAD, 0x34] {} [(0x0000, 0x12), (0x1234, 0x5A)]) { a := 0x5A } 0x0001 4 [] = true := by
  decide +kernel

/-! ### Witnesses: states and operands that meet the hypotheses of the statements -/

theorem witness_StepKeepsMemoryCanonical :
    let s := start 0x0600 [0x8D, 0xFF, 0xFF] { a := 0x01 } [(0x0000, 0x02)]
    s.Inv ∧ ∃ t, step s = .next t ∧ t.readByte 0xFFFF = 0x01 := by
  exact ⟨by decide +kernel, _, rfl, by decide +kernel⟩

theorem witness_ReachableStatesKeepInvariant :
    (defaultsInvariant State.reset ∧ ∃ t, load 0x0600 [0xA9, 0x42] State.reset = .next t) ∧
    Reachable State.reset ∧ ∃ t, Reachable t ∧ t.a = 0x42 ∧ t.readByte 0xFFFF = 0x07 :=
  ⟨⟨⟨rfl, rfl, by decide⟩, _, rfl⟩, .reset, _,
    .step (.load 0x0600 [0xA9, 0x42] (.seed 0xFFFF 0x07 .reset rfl) rfl rfl) rfl, by decide +kernel, by decide +kernel⟩

theorem witness_StepKeepsWindowAndParameters :
    (∃ t, exec .nop State.reset = .next t) ∧ (∃ t, step State.reset = .next t) ∧
    (∃ t, step (start 0x0600 [0xEA] {} []) = .next t) := ⟨⟨_, rfl⟩, ⟨_, rfl⟩, ⟨_, rfl⟩⟩

theorem witness_OnlyIllegalOpcodeFaults :
    exec (.undefined 0x02) (faulting State.reset) = .fault (.illegalOpcode 0x02 0x0000) ∧
    ∃ t, exec (.undefined 0x02) State.reset = .next t := ⟨rfl, _, rfl⟩

theorem witness_DecodeOfEncode :
    (Instr.lda (.memory (.absoluteY 0xFFFF))).wellFormed = true ∧ (Instr.undefined 0xFF).wellFormed = true := by
  decide +kernel

theorem witness_OpcodeMap :
    (⟨0x61, "ADC", .indirectX, 2, 6, false⟩ : OpcodeRow) ∈ opcodeRows ∧
    (⟨0x98, "TYA", .implied, 1, 2, false⟩ : OpcodeRow) ∈ opcodeRows := by
  constructor <;> simp [opcodeRows, opcodeRows1, opcodeRows8]

theorem witness_UndefinedOpcodes :
    (0x02 : Byte) ∈ undefinedOpcodes ∧ (0xFF : Byte) ∈ undefinedOpcodes ∧
    State.reset.cfg.illegalOpcodePolicy = .nop1 ∧
    (faulting (start 0x0600 [0x02] {} [])).cfg.illegalOpcodePolicy = .fault ∧
    (faulting (start 0x0600 [0x02] {} [])).inWindow = true ∧
    (faulting (start 0x0600 [0x02] {} [])).fetch = .undefined 0x02 := by decide +kernel

theorem witness_StepRunsDecodedInstruction :
    let s := start 0xFFFF [0xA5, 0x10] {} []
    s.inWindow = true ∧
      decodeBytes [s.readByte s.pc, s.readByte (s.pc + 1), s.readByte (s.pc + 2)] =
        .ok (.lda (.memory (.zeroPage 0x10)), [0x00]) := by decide +kernel

theorem witness_HaltedStepKeepsState :
    State.reset.halted = true ∧
    ({ start 0x0600 [0xEA] {} [] with pc := 0x0601 } : State).halted = true ∧
    ({ start 0x0600 [0xEA] {} [] with pc := 0x05FF } : State).halted = true ∧
    (start 0x0600 [0xEA] {} []).inWindow = true ∧
    ({ start 0xFFFF [0xEA, 0xEA] {} [] with pc := 0x0000 } : State).halted = true := by decide +kernel

theorem witness_LoadedInstructionRunsNext :
    decodeTableWord 24 0xFFFF20 = some (.jsr 0xFFFF) ∧ decodeTableWord 8 0x00 = some .brk := by decide +kernel

theorem witness_LoadPositionsProgram :
    [0xA9, 0x42].length ≤ State.reset.cfg.maxProgramLength ∧
    (∀ k' < [0xA9, 0x42].length, 0 < k' → (0xFFFF : Word) + BitVec.ofNat 16 k' ≠ 0xFFFF + BitVec.ofNat 16 0) ∧
    (∀ k < [0xA9, 0x42].length, (0xFFFE : Word) ≠ 0xFFFF + BitVec.ofNat 16 k) ∧
    (∀ k < [0xA9, 0x42].length, (0x0001 : Word) ≠ 0xFFFF + BitVec.ofNat 16 k) := by decide +kernel

theorem witness_DegenerateLoads :
    [0xEA, 0xEA].length > ({ State.reset with cfg := { State.reset.cfg with maxProgramLength := 1 } } : State).cfg.maxProgramLength ∧
    [0xEA].length ≤ ({ State.reset with cfg := { State.reset.cfg with maxProgramLength := 1 } } : State).cfg.maxProgramLength := by
  decide

theorem witness_RunHasOneEnd :
    (start 0x0600 [0xEA] {} []).inWindow = true ∧ (∃ t, step (start 0x0600 [0xEA] {} []) = .next t) ∧
    (∃ t, runWindow 1 (start 0x0600 [0xEA] {} []) = .halted t) ∧
    (∃ t, runWindow 1 (start 0x0600 [0x50, 0xFE] {} []) = .cutShort t) ∧
    (∃ t r, runWindow 1 (faulting (start 0x0600 [0x02] {} [])) = .faulted t r ∧ t = faulting (start 0x0600 [0x02] {} [])) ∧
    [0xA9, 0x42].length ≤ State.reset.cfg.maxProgramLength :=
  ⟨by decide +kernel, ⟨_, rfl⟩, ⟨_, rfl⟩, ⟨_, rfl⟩, ⟨_, _, rfl, rfl⟩, by decide⟩

theorem witness_MemoryReadWrite : (0xFFFF : Word) ≠ 0x0000 ∧ (0x0001 : Word) ≠ 0x0000 := by decide

theorem witness_PointerAddresses :
    State.reset.cfg.indyPointerWrap = .zeroPage ∧ (linear State.reset).cfg.indyPointerWrap = .linear := by decide

theorem witness_PageCrossedModes :
    (MemMode.absoluteX 0x12FF).pageCrossed { State.reset with x := 0x01 } = true ∧
    (MemMode.absoluteX 0x12FE).pageCrossed { State.reset with x := 0x01 } = false ∧
    (MemMode.absoluteY 0xFFFF).pageCrossed { State.reset with y := 0x01 } = true ∧
    (MemMode.indirectY 0x20).pageCrossed (start 0x0600 [] { y := 0x01 } [(0x0020, 0xFF), (0x0021, 0x12)]) = true := by
  decide +kernel

theorem witness_DecimalAddition : (isBcd 0x99 ∧ isBcd 0x01) ∧ isBcd 0x00 ∧ ¬ isBcd 0x0A := by
  unfold isBcd; decide

theorem witness_DecimalSubtraction : (isBcd 0x00 ∧ isBcd 0x99) ∧ ¬ isBcd 0xA0 := by
  unfold isBcd; decide

theorem witness_LoadInstructions :
    (Instr.lda (.memory (.indirectY 0xFF))).wellFormed = true ∧
    (Instr.ldx (.memory (.zeroPageY 0xFF))).wellFormed = true ∧
    (Instr.ldy (.memory (.absoluteX 0xFFFF))).wellFormed = true := by decide

theorem witness_StoreInstructions :
    (Instr.sta (.absoluteY 0xFFFF)).wellFormed = true ∧ (Instr.stx (.zeroPageY 0xFF)).wellFormed = true ∧
    (Instr.sty (.zeroPageX 0xFF)).wellFormed = true ∧
    (Instr.sta (.absolute 0x0003)).wellFormed = true ∧
    ∃ t, exec (.sta (.absolute 0x0003)) State.reset = .next t ∧ t.pc = (MemMode.absolute 0x0003).ea State.reset :=
  ⟨by decide, by decide, by decide, by decide, _, rfl, rfl⟩

theorem witness_LogicalInstructions :
    (Instr.and (.immediate 0xFF)).wellFormed = true ∧ (Instr.ora (.memory (.indirectX 0xFF))).wellFormed = true ∧
    (Instr.eor (.memory (.absoluteY 0xFFFF))).wellFormed = true := by decide

theorem witness_BitInstruction :
    (Instr.bit (.zeroPage 0xFF)).wellFormed = true ∧ (Instr.bit (.absolute 0xFFFF)).wellFormed = true := by decide

theorem witness_AdcInstruction :
    (Instr.adc (.immediate 0x01)).wellFormed = true ∧ State.reset.p.d = false ∧ (withD State.reset true).p.d = true := by
  decide

theorem witness_SbcInstruction :
    (Instr.sbc (.immediate 0x01)).wellFormed = true ∧ State.reset.p.d = false ∧ (withD State.reset true).p.d = true := by
  decide

theorem witness_CompareInstructions :
    (Instr.cmp (.memory (.absoluteX 0xFFFF))).wellFormed = true ∧ (Instr.cpx (.memory (.absolute 0xFFFF))).wellFormed = true ∧
    (Instr.cpy (.memory (.zeroPage 0xFF))).wellFormed = true := by decide

theorem witness_PhpThenPlpRestoresFlags :
    let s : State := { State.reset with sp := 0x00, p := Flags.unpack 0xFF }
    ∃ t u, exec .php s = .next t ∧ exec .plp { t with p := Flags.unpack 0x00 } = .next u := ⟨_, _, rfl, rfl⟩

theorem witness_JsrThenRtsReturns :
    let s : State := { State.reset with sp := 0x00, pc := 0xFFFD }
    ∃ t u, exec (.jsr 0x0700) s = .next t ∧ exec .rts t = .next u := ⟨_, _, rfl, rfl⟩

theorem witness_HandBuiltFrameReturns :
    ∃ u, exec .rti ((({ State.reset with sp := 0x01 } : State).push 0x12 |>.push 0x34).push 0xC3) = .next u := ⟨_, rfl⟩

theorem witness_RegisterWriters :
    (∃ t, exec .nop State.reset = .next t) ∧ Instr.nop.mode ≠ .accumulator ∧
    Instr.nop.mnemonic ∉ ["LDA", "PLA", "TXA", "TYA", "AND", "ORA", "EOR", "ADC", "SBC"] ∧
    Instr.nop.mnemonic ∉ ["LDX", "TAX", "TSX", "INX", "DEX"] ∧ Instr.nop.mnemonic ∉ ["LDY", "TAY", "INY", "DEY"] ∧
    Instr.nop.mnemonic ∉ ["TXS", "PHA", "PHP", "PLA", "PLP", "JSR", "RTS", "RTI"] := ⟨⟨_, rfl⟩, by decide +kernel⟩

theorem witness_FlagWriters :
    (∃ t, exec .brk State.reset = .next t) ∧
    Instr.brk.mnemonic ∉ ["ADC", "SBC", "CMP", "CPX", "CPY", "ASL", "LSR", "ROL", "ROR", "SEC", "CLC", "PLP", "RTI"] ∧
    Instr.brk.mnemonic ∉ ["LDA", "LDX", "LDY", "AND", "ORA", "EOR", "ASL", "LSR", "ROL", "ROR", "INC", "DEC", "INX", "INY",
      "DEX", "DEY", "BIT", "ADC", "SBC", "CMP", "CPX", "CPY", "PLA", "TAX", "TXA", "TAY", "TYA", "TSX", "PLP", "RTI"] ∧
    Instr.brk.mnemonic ∉ ["SEI", "CLI", "PLP", "RTI"] ∧ Instr.brk.mnemonic ∉ ["SED", "CLD", "PLP", "RTI"] ∧
    Instr.brk.mnemonic ∉ ["ADC", "SBC", "BIT", "CLV", "PLP", "RTI"] := ⟨⟨_, rfl⟩, by decide +kernel⟩

theorem witness_MemoryFrame :
    (∃ t, exec (.jsr 0x0700) { State.reset with sp := 0x00 } = .next t) ∧
    (0x0101 : Word) ∉ storedAt (.jsr 0x0700) { State.reset with sp := 0x00 } ∧
    (0x0100 : Word) ∈ storedAt (.jsr 0x0700) { State.reset with sp := 0x00 } ∧
    (0x01FF : Word) ∈ storedAt (.jsr 0x0700) { State.reset with sp := 0x00 } := ⟨⟨_, rfl⟩, by decide +kernel⟩

theorem witness_PcAfterInstruction :
    (∃ t, exec .nop { State.reset with pc := 0xFFFF } = .next t) ∧ setsPc .nop { State.reset with pc := 0xFFFF } = false ∧
    setsPc (.beq 0xFE) State.reset = false ∧ setsPc (.bne 0xFE) State.reset = true := ⟨⟨_, rfl⟩, by decide⟩

theorem witness_CyclesCharged :
    (∃ t, exec .brk { State.reset with cycles := 0xFFFFFFFFFFFFFFFF } = .next t ∧ t.cycles = 6) ∧
    (∃ t, exec .nop State.reset = .next t ∧ t.cycles = 2) := ⟨⟨_, rfl, by decide +kernel⟩, ⟨_, rfl, by decide +kernel⟩⟩

theorem witness_CyclesReadByNoInstruction :
    ∃ t, exec (.beq 0x7F) { State.reset with cycles := 0xFFFFFFFFFFFFFFFF } = .next t := ⟨_, rfl⟩

theorem witness_DecimalFlagIsolation :
    (Instr.cmp (.immediate 0x09)).mnemonic ∉ ["ADC", "SBC", "PHP", "SED", "CLD", "PLP", "RTI"] ∧
    (∃ t, exec (.cmp (.immediate 0x09)) State.reset = .next t) ∧
    Instr.plp.mnemonic ∈ ["SED", "CLD", "PLP", "RTI"] := ⟨by decide +kernel, ⟨_, rfl⟩, by decide +kernel⟩

theorem witness_InterruptAndBreakFlagsGateNothing :
    Instr.brk.mnemonic ∉ ["PHP", "SEI", "CLI", "PLP", "RTI"] ∧ (∃ t, exec .brk State.reset = .next t) ∧
    Instr.cli.mnemonic ∈ ["SEI", "CLI", "PLP", "RTI"] ∧ Instr.sei.mnemonic ∉ ["PHP", "PLP", "RTI"] ∧
    (∃ t, exec .sei State.reset = .next t) ∧ Instr.rti.mnemonic ∈ ["PLP", "RTI"] :=
  ⟨by decide +kernel, ⟨_, rfl⟩, by decide +kernel, by decide +kernel, ⟨_, rfl⟩, by decide +kernel⟩

end Sys2Proof.Tests
end

/-! PROOFS of the family 10_state.md. What the state after creation is, what the flag operations compute, what state an
instruction leaves unchanged, and what state it does not read. -/

/-! ### Creation and the flag operations (R30 to R33, R46, R188) -/

section FlagOperations

namespace Sys2Proof.Machine

/-- Settles O1: the record after creation is given field by field, and its memory lists no byte. -/
theorem resetState : Obligations.ResetState :=
  ⟨rfl, rfl, rfl, rfl, rfl, rfl, rfl, rfl, rfl, rfl, rfl, rfl, rfl, rfl, fun addr => Memory.read_nil addr.toNat⟩

/-- The bits of the packed byte, over the 128 values of P. -/
theorem Flags.getLsbD_pack (p : Flags) :
    p.pack.getLsbD 7 = p.n ∧ p.pack.getLsbD 6 = p.v ∧ p.pack.getLsbD 5 = true ∧ p.pack.getLsbD 4 = p.b ∧
    p.pack.getLsbD 3 = p.d ∧ p.pack.getLsbD 2 = p.i ∧ p.pack.getLsbD 1 = p.z ∧ p.pack.getLsbD 0 = p.c := by
  obtain ⟨c, z, i, d, b, v, n⟩ := p
  decide +revert

theorem Flags.unpack_pack (p : Flags) : Flags.unpack p.pack = p := by
  obtain ⟨hn, hv, -, hb, hd, hi, hz, hc⟩ := p.getLsbD_pack
  simp only [Flags.unpack, hn, hv, hb, hd, hi, hz, hc]

/-- Packing what was unpacked gives every stored bit back, and sets bit 5, which is not stored. -/
theorem Flags.pack_unpack (b : Byte) : (Flags.unpack b).pack = b ||| 0x20 := by
  obtain ⟨hn, hv, h5, hb, hd, hi, hz, hc⟩ := (Flags.unpack b).getLsbD_pack
  apply BitVec.eq_of_getLsbD_eq
  intro k hk
  interval_cases k <;> simp only [hn, hv, h5, hb, hd, hi, hz, hc] <;> simp [Flags.unpack]

/-- Settles O20: the bits of the packed byte are those of R30, and both round trips follow bit by bit. -/
theorem packUnpackRoundTrip : Obligations.PackUnpackRoundTrip :=
  ⟨Flags.getLsbD_pack, Flags.unpack_pack, Flags.pack_unpack⟩

theorem getLsbD_seven_eq_decide (v : Byte) : v.getLsbD 7 = decide (128 ≤ v.toNat) := v.msb_eq_decide

theorem toNat_byte_sub (r m : Byte) : (r - m).toNat = (r.toNat + 256 - m.toNat) % 256 := by
  rw [BitVec.toNat_sub]
  omega

theorem Flags.setNZ_eq (p : Flags) (v : Byte) :
    p.setNZ v = { p with z := decide (v = 0), n := decide (128 ≤ v.toNat) } := by
  simp only [Flags.setNZ, getLsbD_seven_eq_decide, beq_eq_decide]

/-- Settles O21: a compare is `setNZ` of the difference, whose value is the subtraction modulo 256. -/
theorem flagRules : Obligations.FlagRules := by
  refine ⟨Flags.setNZ_eq, fun p r m => ?_⟩
  have hz : r - m = 0 ↔ (r.toNat + 256 - m.toNat) % 256 = 0 := by
    rw [← toNat_byte_sub, ← BitVec.toNat_inj]
    rfl
  simp only [Flags.compare, Flags.setNZ_eq, hz, toNat_byte_sub, ge_iff_le]

end Sys2Proof.Machine

end FlagOperations

/-! ### What an instruction leaves unchanged (R21 to R28, R34 to R40, R45)

For all but three kinds of instruction `exec` computes to one next state, which `cases` on `exec i s = .next t` puts in
place of `t`: named updates of `s`, whose laws the simp set holds. A shift also depends on its target, a branch on whether
it is taken, an undefined opcode on the policy. -/

section Frames

namespace Sys2Proof.Machine

open Sys2Proof.Claims

/-- An undefined opcode answers a next state under the policy nop1 only, and then moves PC and Cycles alone. -/
theorem exec_undefined_next {op : Byte} {s t : State} :
    exec (.undefined op) s = .next t ↔
      s.cfg.illegalOpcodePolicy = .nop1 ∧ t = (s.toPcNext (.undefined op)).charge (cost (.undefined op) false 0) := by
  obtain ⟨hp, h⟩ | ⟨hp, h⟩ := execUndefined_cases op s
  · simp [exec, h, hp, eq_comm]
  · simp [exec, h, hp]

theorem exec_keeps_window_cfg {i : Instr} {s t : State} (h : exec i s = .next t) :
    t.window = s.window ∧ t.cfg = s.cfg := by
  cases i with
  | asl o | lsr o | rol o | ror o =>
    cases o with
    | accumulator => cases h; simp
    | memory m => cases h; simp
  | adc o | sbc o => cases h; simp [State.arithmetic_eq]
  | bpl b | bmi b | bvc b | bvs b | bcc b | bcs b | bne b | beq b =>
    cases h; split
    · simp
    · simp
  | rti => cases h; simp [State.returnFromInterrupt_eq]
  | undefined op => obtain ⟨-, rfl⟩ := exec_undefined_next.1 h; simp
  | _ => cases h; simp

/-- Settles O53: an instruction outside a register's list is made of updates that leave the register alone. -/
theorem registerWriters : Obligations.RegisterWriters := by
  intro i s t h
  cases i with
  | asl o | lsr o | rol o | ror o =>
    cases o with
    | accumulator => cases h; simp [Instr.mode, ShiftOperand.mode]
    | memory m => cases h; simp
  | adc o | sbc o => cases h; simp [Instr.mnemonic, State.arithmetic_eq]
  | bpl b | bmi b | bvc b | bvs b | bcc b | bcs b | bne b | beq b =>
    cases h; split
    · simp
    · simp
  | rti => cases h; simp [Instr.mnemonic, State.returnFromInterrupt_eq]
  | undefined op => obtain ⟨-, rfl⟩ := exec_undefined_next.1 h; simp
  | _ => cases h; simp [Instr.mnemonic]

/-- Settles O54: an instruction outside a flag's list is made of updates that leave the flag alone. -/
theorem flagWriters : Obligations.FlagWriters := by
  intro i s t h
  cases i with
  | asl o | lsr o | rol o | ror o =>
    cases o with
    | accumulator => cases h; simp [Instr.mnemonic]
    | memory m => cases h; simp [Instr.mnemonic]
  | adc o | sbc o => cases h; simp [Instr.mnemonic, State.arithmetic_eq]
  | bpl b | bmi b | bvc b | bvs b | bcc b | bcs b | bne b | beq b =>
    cases h; split
    · simp
    · simp
  | rti => cases h; simp [Instr.mnemonic, State.returnFromInterrupt_eq]
  | undefined op => obtain ⟨-, rfl⟩ := exec_undefined_next.1 h; simp
  | _ => cases h; simp [Instr.mnemonic]

/-- An instruction that does not set PC by its own rule leaves it where `toPcNext` put it; a branch is such an
instruction where it is not taken. -/
theorem exec_pc_of_not_setsPc {i : Instr} {s t : State} (h : exec i s = .next t) (hi : setsPc i s = false) :
    t.pc = (s.toPcNext i).pc := by
  cases i with
  | asl o | lsr o | rol o | ror o =>
    cases o with
    | accumulator => cases h; simp
    | memory m => cases h; simp
  | adc o | sbc o => cases h; simp [State.arithmetic_eq]
  | bpl b | bvc b | bcc b | bne b =>
    cases h; split
    case isTrue taken => cases hi.symm.trans ((beq_false _).symm.trans taken)
    case isFalse => simp
  | bmi b | bvs b | bcs b | beq b =>
    cases h; split
    case isTrue taken => cases hi.symm.trans (eq_of_beq taken)
    case isFalse => simp
  | jmp o | jsr target | rts | rti => cases hi
  | undefined op => obtain ⟨-, rfl⟩ := exec_undefined_next.1 h; simp
  | _ => cases h; simp

/-- Settles O56: PC is where `toPcNext` put it, and a 16-bit addition wraps modulo 65536. -/
theorem pcAfterInstruction : Obligations.PcAfterInstruction := by
  intro i s t h hi
  rw [exec_pc_of_not_setsPc h hi, State.toPcNext_pc, BitVec.toNat_add, BitVec.toNat_ofNat, Nat.add_mod_mod]

end Sys2Proof.Machine

end Frames

/-! ### What an instruction does not read (R36 to R38, R41, R45)

One theorem says that `exec` commutes with a change of the state it does not read; each statement is a case of it. -/

section Unread

namespace Sys2Proof.Machine

open Sys2Proof.Claims

/-- A change of the flags I, D and B, of the load window and of Cycles. -/
structure Perturbation where
  i : Bool → Bool := id
  d : Bool → Bool := id
  b : Bool → Bool := id
  window : Window → Window := id
  elapsed : CycleCount := 0

/-- The state with the change made. -/
def State.perturb (δ : Perturbation) (s : State) : State :=
  { s with
    p := { s.p with i := δ.i s.p.i, d := δ.d s.p.d, b := δ.b s.p.b }
    window := δ.window s.window
    cycles := s.cycles + δ.elapsed }

/-- The change spares each flag that the instruction reads or overwrites: D for those named in R37, I for those in R36, B
for those in R38. -/
structure Perturbation.Spares (δ : Perturbation) (instr : Instr) : Prop where
  d : instr.mnemonic ∈ ["ADC", "SBC", "PHP", "SED", "CLD", "PLP", "RTI"] → δ.d = id
  i : instr.mnemonic ∈ ["PHP", "SEI", "CLI", "PLP", "RTI"] → δ.i = id
  b : instr.mnemonic ∈ ["PHP", "PLP", "RTI"] → δ.b = id

theorem State.perturb_charge (δ : Perturbation) (s : State) (n : Nat) :
    (s.charge n).perturb δ = (s.perturb δ).charge n := by
  simp only [State.perturb, State.charge, add_right_comm]

theorem State.perturb_setPc (δ : Perturbation) (s : State) (target : Word) :
    (s.setPc target).perturb δ = (s.perturb δ).setPc target := rfl

theorem State.perturb_push (δ : Perturbation) (s : State) (v : Byte) :
    (s.push v).perturb δ = (s.perturb δ).push v := rfl

theorem State.perturb_arithmetic {δ : Perturbation} (hd : δ.d = id) (s : State) (binary : AluSum) (decimal : Carried) :
    (s.arithmetic binary decimal).perturb δ = (s.perturb δ).arithmetic binary decimal := by
  simp only [State.arithmetic_eq, State.perturb, hd, id]

theorem State.perturb_returnFromInterrupt {δ : Perturbation} (hd : δ.d = id) (hi : δ.i = id) (hb : δ.b = id)
    (s : State) : s.returnFromInterrupt.perturb δ = (s.perturb δ).returnFromInterrupt := by
  simp only [State.returnFromInterrupt_eq, State.perturb, hd, hi, hb, id]
  rfl

/-- An instruction commutes with every change that spares it: the change goes inside the charge, and the operation itself
is then the same term on both sides. -/
theorem exec_perturb {δ : Perturbation} {i : Instr} (hδ : δ.Spares i) {s t : State} (h : exec i s = .next t) :
    exec i (s.perturb δ) = .next (t.perturb δ) := by
  obtain ⟨hd, hi, hb⟩ := hδ
  cases i with
  | adc o | sbc o =>
    cases h; rw [State.perturb_charge, State.perturb_arithmetic (hd (by simp [Instr.mnemonic]))]; rfl
  | php | plp =>
    obtain ⟨δi, δd, δb, window, elapsed⟩ := δ
    obtain rfl : δd = id := hd (by simp [Instr.mnemonic])
    obtain rfl : δi = id := hi (by simp [Instr.mnemonic])
    obtain rfl : δb = id := hb (by simp [Instr.mnemonic])
    cases h; rw [State.perturb_charge]; rfl
  | rti =>
    have restored := State.perturb_returnFromInterrupt (hd (by simp [Instr.mnemonic])) (hi (by simp [Instr.mnemonic]))
      (hb (by simp [Instr.mnemonic])) (s.toPcNext .rti)
    cases h; rw [State.perturb_charge, restored]; rfl
  | cld | sed =>
    obtain ⟨δi, δd, δb, window, elapsed⟩ := δ
    obtain rfl : δd = id := hd (by simp [Instr.mnemonic])
    cases h; rw [State.perturb_charge]; rfl
  | cli | sei =>
    obtain ⟨δi, δd, δb, window, elapsed⟩ := δ
    obtain rfl : δi = id := hi (by simp [Instr.mnemonic])
    cases h; rw [State.perturb_charge]; rfl
  | asl o | lsr o | rol o | ror o =>
    cases o with
    | accumulator => cases h; rw [State.perturb_charge]; rfl
    | memory m => cases h; rw [State.perturb_charge]; rfl
  | bpl b | bmi b | bvc b | bvs b | bcc b | bcs b | bne b | beq b =>
    cases h; rw [State.perturb_charge, apply_ite (State.perturb _)]; rfl
  | jsr target =>
    cases h; rw [State.perturb_charge, State.perturb_setPc, State.perturb_push, State.perturb_push]; rfl
  | undefined op =>
    obtain ⟨hp, rfl⟩ := exec_undefined_next.1 h
    exact exec_undefined_next.2 ⟨hp, State.perturb_charge ..⟩
  | _ => cases h; rw [State.perturb_charge]; rfl

theorem withD_eq_perturb (s : State) (v : Bool) : withD s v = s.perturb { d := fun _ => v } := by
  simp [withD, State.perturb]

theorem withI_eq_perturb (s : State) (v : Bool) : withI s v = s.perturb { i := fun _ => v } := by
  simp [withI, State.perturb]

theorem withB_eq_perturb (s : State) (v : Bool) : withB s v = s.perturb { b := fun _ => v } := by
  simp [withB, State.perturb]

theorem window_update_eq_perturb (s : State) (w : Window) :
    { s with window := w } = s.perturb { window := fun _ => w } := by
  simp [State.perturb]

theorem cycles_update_eq_perturb (s : State) {n k : CycleCount} (h : n = s.cycles + k) :
    { s with cycles := n } = s.perturb { elapsed := k } := by
  simp [State.perturb, h]

/-- Settles O5: no meaning writes the window or the parameters, and the window is among the state that none reads. -/
theorem stepKeepsWindowAndParameters : Obligations.StepKeepsWindowAndParameters := by
  refine ⟨fun i s t h => exec_keeps_window_cfg h, fun s t h => ?_, fun i s t w h => ?_⟩
  · obtain ⟨-, hs⟩ | ⟨-, hs⟩ := step_cases s
    · exact exec_keeps_window_cfg (hs ▸ h)
    · cases hs.symm.trans h
      exact ⟨rfl, rfl⟩
  · rw [window_update_eq_perturb, window_update_eq_perturb]
    exact exec_perturb ⟨fun _ => rfl, fun _ => rfl, fun _ => rfl⟩ h

/-- Settles O58: another value of Cycles is a constant added to it, which the charge commutes with. -/
theorem cyclesReadByNoInstruction : Obligations.CyclesReadByNoInstruction := by
  intro i s t n h
  rw [cycles_update_eq_perturb s (k := n - s.cycles) (by abel), cycles_update_eq_perturb t (k := n - s.cycles) (by abel)]
  exact exec_perturb ⟨fun _ => rfl, fun _ => rfl, fun _ => rfl⟩ h

/-- Settles O59: a change of D alone spares every instruction outside the list; the four others overwrite D. -/
theorem decimalFlagIsolation : Obligations.DecimalFlagIsolation := by
  refine ⟨fun i s t v hi h => ?_, fun i s v hi => ?_⟩
  · rw [withD_eq_perturb, withD_eq_perturb]
    exact exec_perturb ⟨fun hm => absurd hm hi, fun _ => rfl, fun _ => rfl⟩ h
  · cases i with
    | sed | cld | plp | rti => rfl
    | _ => simp [Instr.mnemonic] at hi

/-- Settles O60: a change of I or of B alone spares every instruction outside its list; the others overwrite the flag. -/
theorem interruptAndBreakFlagsGateNothing : Obligations.InterruptAndBreakFlagsGateNothing := by
  refine ⟨fun i s t v hi h => ?_, fun i s v hi => ?_, fun i s t v hi h => ?_, fun i s v hi => ?_⟩
  · rw [withI_eq_perturb, withI_eq_perturb]
    exact exec_perturb ⟨fun _ => rfl, fun hm => absurd hm hi, fun _ => rfl⟩ h
  · cases i with
    | sei | cli | plp | rti => rfl
    | _ => simp [Instr.mnemonic] at hi
  · rw [withB_eq_perturb, withB_eq_perturb]
    exact exec_perturb ⟨fun _ => rfl, fun _ => rfl, fun hm => absurd hm hi⟩ h
  · cases i with
    | plp | rti => rfl
    | _ => simp [Instr.mnemonic] at hi

end Sys2Proof.Machine

end Unread

/-! PROOFS of the family 20_memory.md. What a read returns after a write, what a push and a pull do, and which bytes an
instruction can change. -/

/-! ### Memory and the stack (R52, R57, R58) -/

section MemoryAndStack

namespace Sys2Proof.Machine

/-- A read depends on the memory alone, whatever the registers. -/
theorem State.readByte_eq_of_mem_eq {s t : State} (h : t.mem = s.mem) (addr : Word) :
    t.readByte addr = s.readByte addr := congrArg (Memory.read · addr.toNat) h

/-- Settles O18: the two cases of a read after a write, and the names that `writeByte` goes by. -/
theorem memoryReadWrite : Obligations.MemoryReadWrite :=
  ⟨State.readByte_writeByte_same, fun s _ _ v h => State.readByte_writeByte_other s v h, fun _ _ _ => ⟨_, rfl⟩,
    fun _ _ _ => rfl, fun _ _ _ _ => rfl, fun a => Memory.read_nil a.toNat⟩

/-- SP one down is SP plus 255 modulo 256 (R57). -/
theorem sp_sub_one (sp : Byte) : sp - 1 = BitVec.ofNat 8 ((sp.toNat + 255) % 256) := by
  apply BitVec.eq_of_toNat_eq
  rw [toNat_byte_sub, BitVec.toNat_ofNat, Nat.mod_mod]
  rfl

/-- SP one up is SP plus 1 modulo 256 (R58). -/
theorem sp_add_one (sp : Byte) : sp + 1 = BitVec.ofNat 8 ((sp.toNat + 1) % 256) := by
  apply BitVec.eq_of_toNat_eq
  rw [BitVec.toNat_add, BitVec.toNat_ofNat, Nat.mod_mod]
  rfl

/-- The stack byte a pull reads is in page 1, at the incremented SP. -/
theorem stackAddr_sp_add_one (sp : Byte) : stackAddr (sp + 1) = BitVec.ofNat 16 (0x0100 + (sp.toNat + 1) % 256) := by
  apply BitVec.eq_of_toNat_eq
  rw [stackAddr_toNat, sp_add_one, BitVec.toNat_ofNat, BitVec.toNat_ofNat]
  omega

/-- Settles O19: the stack address is a number of page 1, and the 8-bit SP wraps modulo 256. -/
theorem stackPrimitives : Obligations.StackPrimitives := by
  refine ⟨fun s v => ?_, fun s => ?_, fun s => ?_⟩
  · rw [← sp_sub_one, ← stackAddr_toNat]
    rfl
  · rw [← sp_add_one]
    rfl
  · rw [State.pullByte, stackAddr_sp_add_one]

end Sys2Proof.Machine

end MemoryAndStack

/-! ### Which bytes an instruction can change (R52, R55, R57, R114, R135, R154, R245)

One theorem says what an instruction leaves in memory, by the number of addresses it stores to: none, one, or the two of
JSR. -/

section MemoryFrames

namespace Sys2Proof.Machine

open Sys2Proof.Claims

/-- What an instruction does to memory: nothing, one write, or the two pushes of JSR, at the addresses of `storedAt`. -/
theorem exec_mem_cases {i : Instr} {s t : State} (h : exec i s = .next t) :
    (storedAt i s = [] ∧ t.mem = s.mem) ∨
    (∃ w v, storedAt i s = [w] ∧ t.mem = (s.writeByte w v).mem) ∨
    (∃ v v', storedAt i s = [stackAddr s.sp, stackAddr (s.sp - 1)] ∧
      t.mem = ((s.writeByte (stackAddr s.sp) v).writeByte (stackAddr (s.sp - 1)) v').mem) := by
  cases i with
  | sta m | stx m | sty m | inc m | dec m | pha | php => cases h; exact .inr (.inl ⟨_, _, rfl, rfl⟩)
  | asl o | lsr o | rol o | ror o =>
    cases o with
    | accumulator => cases h; exact .inl ⟨rfl, by simp⟩
    | memory m => cases h; exact .inr (.inl ⟨_, _, rfl, rfl⟩)
  | jsr target =>
    let ret := (s.toPcNext (.jsr target)).pc - 1
    cases h; exact .inr (.inr ⟨hiByte ret, loByte ret, rfl, by simp [ret]⟩)
  | adc o | sbc o => cases h; exact .inl ⟨rfl, by simp [State.arithmetic_eq]⟩
  | bpl b | bmi b | bvc b | bvs b | bcc b | bcs b | bne b | beq b =>
    cases h; split
    · exact .inl ⟨rfl, by simp⟩
    · exact .inl ⟨rfl, by simp⟩
  | rti => cases h; exact .inl ⟨rfl, by simp [State.returnFromInterrupt_eq]⟩
  | undefined op => obtain ⟨-, rfl⟩ := exec_undefined_next.1 h; exact .inl ⟨rfl, by simp⟩
  | _ => cases h; exact .inl ⟨rfl, by simp⟩

/-- Settles O55: a byte at none of the stored addresses reads the same through each write. -/
theorem memoryFrame : Obligations.MemoryFrame := by
  intro i s t h addr haddr
  obtain ⟨-, hm⟩ | ⟨w, v, hi, hm⟩ | ⟨v, v', hi, hm⟩ := exec_mem_cases h
  · exact State.readByte_eq_of_mem_eq hm addr
  · rw [hi, List.mem_singleton] at haddr
    rw [State.readByte_eq_of_mem_eq hm, State.readByte_writeByte_other _ _ haddr]
  · rw [hi, List.mem_pair, not_or] at haddr
    obtain ⟨hne, hne'⟩ := haddr
    rw [State.readByte_eq_of_mem_eq hm, State.readByte_writeByte_other _ _ hne', State.readByte_writeByte_other _ _ hne]

end Sys2Proof.Machine

end MemoryFrames

/-! PROOFS of the family 30_encoding.md. The opcode byte decides the instruction up to its operand, so that the facts about
the opcode map are facts about 256 opcode bytes, and what an undefined opcode does. -/

/-! ### An instruction with its operand replaced (R71, R72, R74)

The operand bytes reach the instruction through its operand alone: `decode op b1 b2` is `decode op 0 0` with the operand
that `b1` and `b2` make, and nothing about an instruction but its operand bytes changes with them. -/

section OperandReplacement

namespace Sys2Proof

/-- The memory operand of the same mode, of the operand bytes `b1` and `b2`, low byte first. -/
def MemMode.withOperand (b1 b2 : Byte) : MemMode → MemMode
  | .zeroPage _ => .zeroPage b1
  | .zeroPageX _ => .zeroPageX b1
  | .zeroPageY _ => .zeroPageY b1
  | .absolute _ => .absolute (word b2 b1)
  | .absoluteX _ => .absoluteX (word b2 b1)
  | .absoluteY _ => .absoluteY (word b2 b1)
  | .indirectX _ => .indirectX b1
  | .indirectY _ => .indirectY b1

/-- The read operand of the same mode, of the operand bytes `b1` and `b2`. -/
def ReadOperand.withOperand (b1 b2 : Byte) : ReadOperand → ReadOperand
  | .immediate _ => .immediate b1
  | .memory m => .memory (m.withOperand b1 b2)

/-- The read-modify-write operand of the same mode, of the operand bytes `b1` and `b2`. -/
def RmwMode.withOperand (b1 b2 : Byte) : RmwMode → RmwMode
  | .zeroPage _ => .zeroPage b1
  | .zeroPageX _ => .zeroPageX b1
  | .absolute _ => .absolute (word b2 b1)
  | .absoluteX _ => .absoluteX (word b2 b1)

/-- The target of the same mode of a shift, of the operand bytes `b1` and `b2`. -/
def ShiftOperand.withOperand (b1 b2 : Byte) : ShiftOperand → ShiftOperand
  | .accumulator => .accumulator
  | .memory m => .memory (m.withOperand b1 b2)

/-- The jump operand of the same mode, of the operand bytes `b1` and `b2`. -/
def JumpOperand.withOperand (b1 b2 : Byte) : JumpOperand → JumpOperand
  | .absolute _ => .absolute (word b2 b1)
  | .indirect _ => .indirect (word b2 b1)

/-- The instruction of the same opcode, of the operand bytes `b1` and `b2`. -/
def Instr.withOperand (b1 b2 : Byte) : Instr → Instr
  | .lda o => .lda (o.withOperand b1 b2)
  | .ldx o => .ldx (o.withOperand b1 b2)
  | .ldy o => .ldy (o.withOperand b1 b2)
  | .sta m => .sta (m.withOperand b1 b2)
  | .stx m => .stx (m.withOperand b1 b2)
  | .sty m => .sty (m.withOperand b1 b2)
  | .and o => .and (o.withOperand b1 b2)
  | .ora o => .ora (o.withOperand b1 b2)
  | .eor o => .eor (o.withOperand b1 b2)
  | .asl o => .asl (o.withOperand b1 b2)
  | .lsr o => .lsr (o.withOperand b1 b2)
  | .rol o => .rol (o.withOperand b1 b2)
  | .ror o => .ror (o.withOperand b1 b2)
  | .inc m => .inc (m.withOperand b1 b2)
  | .dec m => .dec (m.withOperand b1 b2)
  | .bit m => .bit (m.withOperand b1 b2)
  | .adc o => .adc (o.withOperand b1 b2)
  | .sbc o => .sbc (o.withOperand b1 b2)
  | .cmp o => .cmp (o.withOperand b1 b2)
  | .cpx o => .cpx (o.withOperand b1 b2)
  | .cpy o => .cpy (o.withOperand b1 b2)
  | .bpl _ => .bpl b1
  | .bmi _ => .bmi b1
  | .bvc _ => .bvc b1
  | .bvs _ => .bvs b1
  | .bcc _ => .bcc b1
  | .bcs _ => .bcs b1
  | .bne _ => .bne b1
  | .beq _ => .beq b1
  | .jmp o => .jmp (o.withOperand b1 b2)
  | .jsr _ => .jsr (word b2 b1)
  | i => i

/-- Two instructions of one row of the opcode map: they agree in all but their operand bytes. -/
structure Instr.SameRow (i j : Instr) : Prop where
  opcode : i.opcode = j.opcode
  mnemonic : i.mnemonic = j.mnemonic
  mode : i.mode = j.mode
  baseCycles : i.baseCycles = j.baseCycles
  pagePenalised : i.pagePenalised = j.pagePenalised
  wellFormed : i.wellFormed = j.wellFormed

theorem Instr.SameRow.length {i j : Instr} (h : i.SameRow j) : i.length = j.length := by
  rw [Instr.length, Instr.length, h.mode]

section

variable (b1 b2 : Byte)

theorem Instr.withOperand_sameRow (i : Instr) : (i.withOperand b1 b2).SameRow i := by
  cases i with
  | lda o | ldx o | ldy o | and o | ora o | eor o | adc o | sbc o | cmp o | cpx o | cpy o =>
    cases o with
    | immediate v => exact ⟨rfl, rfl, rfl, rfl, rfl, rfl⟩
    | memory m => cases m <;> exact ⟨rfl, rfl, rfl, rfl, rfl, rfl⟩
  | sta m | stx m | sty m | inc m | dec m | bit m => cases m <;> exact ⟨rfl, rfl, rfl, rfl, rfl, rfl⟩
  | asl o | lsr o | rol o | ror o =>
    cases o with
    | accumulator => exact ⟨rfl, rfl, rfl, rfl, rfl, rfl⟩
    | memory m => cases m <;> exact ⟨rfl, rfl, rfl, rfl, rfl, rfl⟩
  | jmp o => cases o <;> exact ⟨rfl, rfl, rfl, rfl, rfl, rfl⟩
  | _ => exact ⟨rfl, rfl, rfl, rfl, rfl, rfl⟩

theorem loByte_hiByte_word : [loByte (word b2 b1), hiByte (word b2 b1)] = [b1, b2] := by
  rw [loByte_word, hiByte_word]

theorem MemMode.bytes_withOperand (m : MemMode) :
    (m.withOperand b1 b2).bytes = [b1, b2].take m.mode.operandBytes := by
  cases m with
  | absolute w | absoluteX w | absoluteY w => exact loByte_hiByte_word b1 b2
  | _ => rfl

theorem ReadOperand.bytes_withOperand (o : ReadOperand) :
    (o.withOperand b1 b2).bytes = [b1, b2].take o.mode.operandBytes := by
  cases o with
  | immediate v => rfl
  | memory m => exact m.bytes_withOperand b1 b2

theorem RmwMode.bytes_withOperand (m : RmwMode) :
    (m.withOperand b1 b2).toMem.bytes = [b1, b2].take m.toMem.mode.operandBytes := by
  cases m with
  | absolute w | absoluteX w => exact loByte_hiByte_word b1 b2
  | _ => rfl

theorem ShiftOperand.bytes_withOperand (o : ShiftOperand) :
    (o.withOperand b1 b2).bytes = [b1, b2].take o.mode.operandBytes := by
  cases o with
  | accumulator => rfl
  | memory m => exact m.bytes_withOperand b1 b2

/-- The operand bytes are the first of `b1` and `b2`, as many as the mode consumes. -/
theorem Instr.operandBytes_withOperand (i : Instr) :
    (i.withOperand b1 b2).operandBytes = [b1, b2].take i.mode.operandBytes := by
  cases i with
  | lda o | ldx o | ldy o | and o | ora o | eor o | adc o | sbc o | cmp o | cpx o | cpy o =>
    exact o.bytes_withOperand b1 b2
  | sta m | stx m | sty m | bit m => exact m.bytes_withOperand b1 b2
  | asl o | lsr o | rol o | ror o => exact o.bytes_withOperand b1 b2
  | inc m | dec m => exact m.bytes_withOperand b1 b2
  | jmp o => cases o <;> exact loByte_hiByte_word b1 b2
  | jsr target => exact loByte_hiByte_word b1 b2
  | _ => rfl

theorem Instr.withOperand_eq_undefined {i : Instr} {op : Byte} :
    i.withOperand b1 b2 = .undefined op ↔ i = .undefined op := by
  cases i <;> simp [Instr.withOperand]

end

end Sys2Proof

end OperandReplacement

/-! ### The opcode map (R73, R74, R78 to R80) -/

section OpcodeBytes

namespace Sys2Proof

/-- In each cell of the grid of R79 the two bytes after the opcode are used for the operand alone. -/
theorem decodeDefined_eq_map (op b1 b2 : Byte) :
    decodeDefined op b1 b2 = (decodeDefined op 0 0).map (Instr.withOperand b1 b2) := by
  unfold decodeDefined decodeRow0 decodeRow1 decodeRow2 decodeRow3 decodeRow4 decodeRow5 decodeRow6 decodeRow7
    decodeRow8 decodeRow9 decodeRowA decodeRowB decodeRowC decodeRowD decodeRowE decodeRowF
  split
  case h_17 => rfl
  all_goals split <;> rfl

/-- The opcode byte decides the instruction up to its operand (R74). -/
theorem decode_eq_withOperand (op b1 b2 : Byte) : decode op b1 b2 = (decode op 0 0).withOperand b1 b2 := by
  unfold decode
  rw [decodeDefined_eq_map]
  cases decodeDefined op 0 0 with
  | none => rfl
  | some i => rfl

theorem decode_sameRow (op b1 b2 : Byte) : (decode op b1 b2).SameRow (decode op 0 0) := by
  rw [decode_eq_withOperand]
  exact Instr.withOperand_sameRow b1 b2 _

/-- Each of the 256 opcode bytes is the opcode of the instruction it decodes to. -/
theorem opcode_decode_zero (op : Byte) : (decode op 0 0).opcode = some op := by
  decide +kernel +revert

theorem wellFormed_decode_zero (op : Byte) : (decode op 0 0).wellFormed = true := by
  decide +kernel +revert

theorem decode_zero_eq_undefined (op : Byte) : decode op 0 0 = .undefined op ↔ op ∈ undefinedOpcodes := by
  decide +kernel +revert

theorem opcode_decode (op b1 b2 : Byte) : (decode op b1 b2).opcode = some op :=
  (decode_sameRow op b1 b2).opcode.trans (opcode_decode_zero op)

theorem wellFormed_decode (op b1 b2 : Byte) : (decode op b1 b2).wellFormed = true :=
  (decode_sameRow op b1 b2).wellFormed.trans (wellFormed_decode_zero op)

theorem length_decode (op b1 b2 : Byte) : (decode op b1 b2).length = opcodeLength op :=
  (decode_sameRow op b1 b2).length

theorem operandBytes_decode (op b1 b2 : Byte) :
    (decode op b1 b2).operandBytes = [b1, b2].take (decode op b1 b2).mode.operandBytes := by
  rw [(decode_sameRow op b1 b2).mode, decode_eq_withOperand, Instr.operandBytes_withOperand]

theorem decode_eq_undefined (op b1 b2 : Byte) : decode op b1 b2 = .undefined op ↔ op ∈ undefinedOpcodes := by
  rw [decode_eq_withOperand, Instr.withOperand_eq_undefined, decode_zero_eq_undefined]

/-- Settles O8: the opcode is the first byte consumed and the operand bytes are the rest. -/
theorem encodeOfDecode : Obligations.EncodeOfDecode := by
  intro op b1 b2
  refine ⟨wellFormed_decode op b1 b2, ?_, length_decode op b1 b2⟩
  rw [encode, opcode_decode, operandBytes_decode, Instr.length, Nat.add_comm, List.take_succ_cons]
  rfl

open Sys2Proof.Claims

/-- The 151 rows, at operand bytes that are zero. -/
theorem decode_zero_of_mem_opcodeRows : ∀ row ∈ opcodeRows,
    (decode row.opcode 0 0).mnemonic = row.mnemonic ∧ (decode row.opcode 0 0).mode = row.mode ∧
    (decode row.opcode 0 0).length = row.length ∧ (decode row.opcode 0 0).baseCycles = row.cycles ∧
    (decode row.opcode 0 0).pagePenalised = row.pagePenalty := by
  decide +kernel

/-- Settles O10: what a row says does not depend on the operand bytes, and where these are zero it is 151 cases. -/
theorem opcodeMap : Obligations.OpcodeMap := by
  refine ⟨rfl, fun row hrow b1 b2 => ?_⟩
  have h := decode_sameRow row.opcode b1 b2
  rw [h.mnemonic, h.mode, h.length, h.baseCycles, h.pagePenalised]
  exact decode_zero_of_mem_opcodeRows row hrow

/-- R79, R80: the undefined opcodes and the rows of the opcode map are the 256 bytes, each listed once. -/
theorem undefinedOpcodes_append_opcodeRows_perm :
    (undefinedOpcodes.map BitVec.toNat ++ opcodeRows.map (·.opcode.toNat)).Perm (List.range 256) := by
  decide +kernel

theorem mem_undefinedOpcodes_iff (op : Byte) : op ∈ undefinedOpcodes ↔ ∀ row ∈ opcodeRows, row.opcode ≠ op := by
  have listed := undefinedOpcodes_append_opcodeRows_perm.mem_iff.2 (List.mem_range.2 op.isLt)
  obtain ⟨-, -, disjoint⟩ :=
    List.nodup_append.1 (undefinedOpcodes_append_opcodeRows_perm.nodup_iff.2 List.nodup_range)
  constructor
  · rintro hop row hrow rfl
    exact disjoint _ (List.mem_map_of_mem hop) _ (List.mem_map_of_mem hrow) rfl
  · intro hrows
    obtain hop | hop := List.mem_append.1 listed
    · obtain ⟨op', hop', heq⟩ := List.mem_map.1 hop
      exact BitVec.eq_of_toNat_eq heq ▸ hop'
    · obtain ⟨row, hrow, heq⟩ := List.mem_map.1 hop
      exact absurd (BitVec.eq_of_toNat_eq heq) (hrows row hrow)

end Sys2Proof

end OpcodeBytes

/-! ### What an undefined opcode does (R280, R281) -/

section UndefinedOpcodeMeaning

namespace Sys2Proof.Machine

open Sys2Proof.Claims

theorem exec_undefined_of_nop1 (op : Byte) {s : State} (hp : s.cfg.illegalOpcodePolicy = .nop1) :
    exec (.undefined op) s = .next (oneByteDone 2 s s) := exec_undefined_next.2 ⟨hp, rfl⟩

theorem exec_undefined_of_fault (op : Byte) {s : State} (hp : s.cfg.illegalOpcodePolicy = .fault) :
    exec (.undefined op) s = .fault (.illegalOpcode op s.pc) := by
  obtain ⟨hnop, -⟩ | ⟨-, hexec⟩ := execUndefined_cases op s
  · cases hp.symm.trans hnop
  · exact hexec

/-- A step that faults in the window ends the run there, in the state before it. -/
theorem runWindow_of_step_fault (fuel : Nat) {s : State} {r : Fault} (hw : s.inWindow = true)
    (hs : step s = .fault r) : runWindow (fuel + 1) s = .faulted s r := by
  simp only [runWindow, hw, hs, if_true]

end Sys2Proof.Machine

/-! The theorem that settles `Obligations.UndefinedOpcodes` has the name of the list it speaks of, so it stands in a
namespace of its own. -/

namespace Sys2Proof.Encoding

open Sys2Proof.Machine

/-- Settles O11: the two lists share no byte and leave none out, and the policy alone says which outcome there is. -/
theorem undefinedOpcodes : Obligations.UndefinedOpcodes := by
  refine ⟨rfl, fun op b1 b2 => (decode_eq_undefined op b1 b2).symm, mem_undefinedOpcodes_iff, rfl,
    fun op s => exec_undefined_of_nop1 op, fun op s => exec_undefined_of_fault op, fun op s fuel hp hw hf => ?_⟩
  apply runWindow_of_step_fault fuel hw
  obtain ⟨-, hs⟩ | ⟨hout, -⟩ := step_cases s
  · rw [hs, hf, exec_undefined_of_fault op hp]
  · cases hw.symm.trans hout

end Sys2Proof.Encoding

end UndefinedOpcodeMeaning

/-! PROOFS of the family 40_addressing.md. The effective address and the page report of each addressing mode, in numbers,
and where a branch goes. -/

/-! ### The target of a branch (R15, R112) -/

section BranchTargets

namespace Sys2Proof.Machine

/-- Sign extension adds 0xFF00 to a negative byte, which is its value less 256 modulo 65536 (R15). -/
theorem sext16_toNat (b : Byte) : (sext16 b).toNat = if b.toNat < 128 then b.toNat else b.toNat + 65280 := by
  have := b.isLt
  have hwide : (b.setWidth 16).toNat = b.toNat := zext16_toNat b
  simp only [sext16, getLsbD_seven_eq_decide, decide_eq_true_eq]
  split
  case isTrue hneg =>
    rw [BitVec.toNat_add, hwide, if_neg (Nat.not_lt.2 hneg)]
    exact Nat.mod_eq_of_lt (show b.toNat + 65280 < 65536 by omega)
  case isFalse hpos => rw [hwide, if_pos (Nat.not_le.1 hpos)]

/-- Settles O25: the extended offset and its signed value differ by 0 or by 65536. -/
theorem relativeTarget : Obligations.RelativeTarget := by
  intro pcNext b
  rw [branchTarget, BitVec.toNat_add, sext16_toNat]
  split
  · omega
  · omega

end Sys2Proof.Machine

end BranchTargets

/-! ### Effective addresses and page crossings (R100 to R110, R113, R154, R160)

A zero-page address is a number below 256, an indexed one is its base plus the index; each mode's rule is one of these or
reads its pointer at them. -/

section EffectiveAddresses

namespace Sys2Proof.Machine

theorem word_zero_toNat (b : Byte) : (word 0x00 b).toNat = b.toNat := by
  rw [word_toNat]
  exact Nat.zero_add _

/-- An index added in page 0 wraps modulo 256 (R104, R105). -/
theorem word_zero_add_toNat (b r : Byte) : (word 0x00 (b + r)).toNat = (b.toNat + r.toNat) % 256 := by
  rw [word_zero_toNat, BitVec.toNat_add]

/-- An index added to a base address carries into the high byte and wraps modulo 65536 (R107, R110). -/
theorem indexed_ea_toNat (base : Word) (r : Byte) : (indexed base r).ea.toNat = (base.toNat + r.toNat) % 65536 := by
  rw [indexed, BitVec.toNat_add, zext16_toNat]

/-- The high byte changes exactly where the low byte and the index carry; an index below 256 carries at most once. -/
theorem indexed_pageCrossed_iff (base : Word) (r : Byte) :
    (indexed base r).pageCrossed = true ↔ base.toNat % 256 + r.toNat ≥ 256 := by
  have hbase := base.isLt
  have hr := r.isLt
  have hhigh : (indexed base r).pageCrossed = true ↔
      (base.toNat + r.toNat) % 65536 / 256 ≠ base.toNat / 256 := by
    rw [← indexed_ea_toNat, ← hiByte_toNat, ← hiByte_toNat, Ne, BitVec.toNat_inj]
    exact bne_iff_ne
  rw [hhigh]
  omega

/-- Settles O22: a mode of page 0 has the address of its byte or sum of bytes, an absolute one its word or the indexed
word, and a read-modify-write operand is a memory operand. -/
theorem directAddresses : Obligations.DirectAddresses := fun s b w =>
  ⟨word_zero_toNat b, word_zero_add_toNat b s.x, word_zero_add_toNat b s.y, rfl,
    indexed_ea_toNat w s.x, indexed_ea_toNat w s.y,
    word_zero_toNat b, word_zero_add_toNat b s.x, rfl, indexed_ea_toNat w s.x, rfl, fun _ => rfl⟩

/-! A pointer byte is read at an address that the rule gives as a number. -/

theorem word_zero_eq_ofNat (b : Byte) : word 0x00 b = BitVec.ofNat 16 b.toNat := by
  rw [← word_zero_toNat, BitVec.ofNat_toNat, BitVec.setWidth_eq]

theorem word_zero_add_eq_ofNat (b r : Byte) : word 0x00 (b + r) = BitVec.ofNat 16 ((b.toNat + r.toNat) % 256) := by
  rw [word_zero_eq_ofNat, BitVec.toNat_add]

/-- IndirectX adds the index and then 1, and wraps once for both (R109). -/
theorem word_zero_add_add_one_eq_ofNat (b r : Byte) :
    word 0x00 (b + r + 1) = BitVec.ofNat 16 ((b.toNat + r.toNat + 1) % 256) := by
  rw [word_zero_add_eq_ofNat, BitVec.toNat_add, Nat.mod_add_mod]
  rfl

/-- The low byte of a pointer one up, in the page of the pointer (R108). -/
theorem samePage_next_eq_ofNat (ptr : Word) :
    word (hiByte ptr) (loByte ptr + 1) = BitVec.ofNat 16 (ptr.toNat / 256 * 256 + (ptr.toNat % 256 + 1) % 256) := by
  rw [word, hiByte_toNat, BitVec.toNat_add, loByte_toNat]
  rfl

theorem indyHighAddr_zeroPage (b : Byte) : indyHighAddr .zeroPage b = BitVec.ofNat 16 ((b.toNat + 1) % 256) :=
  word_zero_add_eq_ofNat b 1

theorem indyHighAddr_linear (b : Byte) : indyHighAddr .linear b = BitVec.ofNat 16 (b.toNat + 1) := by
  rw [BitVec.ofNat_add, BitVec.ofNat_toNat]
  rfl

/-- The target of `JMP (ptr)` (R108). -/
theorem indirect_target_toNat (ptr : Word) (s : State) :
    ((JumpOperand.indirect ptr).target s).toNat =
      (s.readByte (BitVec.ofNat 16 (ptr.toNat / 256 * 256 + (ptr.toNat % 256 + 1) % 256))).toNat * 256 +
        (s.readByte (BitVec.ofNat 16 ptr.toNat)).toNat := by
  rw [JumpOperand.target, word_toNat, samePage_next_eq_ofNat, BitVec.ofNat_toNat, BitVec.setWidth_eq]

/-- `EA(IndirectX)` (R109). -/
theorem indirectX_ea_toNat (b : Byte) (s : State) :
    ((MemMode.indirectX b).ea s).toNat =
      (s.readByte (BitVec.ofNat 16 ((b.toNat + s.x.toNat + 1) % 256))).toNat * 256 +
        (s.readByte (BitVec.ofNat 16 ((b.toNat + s.x.toNat) % 256))).toNat := by
  rw [← word_zero_add_add_one_eq_ofNat, ← word_zero_add_eq_ofNat]
  exact word_toNat _ _

/-- `EA(IndirectY)`, up to where the high byte of the pointer is read (R110). -/
theorem indirectY_ea_toNat (b : Byte) (s : State) :
    ((MemMode.indirectY b).ea s).toNat =
      ((s.readByte (indyHighAddr s.cfg.indyPointerWrap b)).toNat * 256 +
        (s.readByte (BitVec.ofNat 16 b.toNat)).toNat + s.y.toNat) % 65536 := by
  rw [← word_zero_eq_ofNat, ← word_toNat]
  exact indexed_ea_toNat _ s.y

/-- Settles O23: each mode makes a word of the two bytes at its pointer; for IndirectY the setting says where the second
one is. -/
theorem pointerAddresses : Obligations.PointerAddresses := by
  intro s b w
  refine ⟨indirect_target_toNat w s, indirectX_ea_toNat b s, fun hwrap => ?_, fun hwrap => ?_⟩
  · rw [indirectY_ea_toNat, hwrap, indyHighAddr_zeroPage]
  · rw [indirectY_ea_toNat, hwrap, indyHighAddr_linear]

/-- R113: the modes that index a base address are the only ones to report a crossing. -/
theorem mode_of_pageCrossed {m : MemMode} {s : State} (h : m.pageCrossed s = true) :
    m.mode = .absoluteX ∨ m.mode = .absoluteY ∨ m.mode = .indirectY := by
  cases m with
  | absoluteX w => exact .inl rfl
  | absoluteY w => exact .inr (.inl rfl)
  | indirectY b => exact .inr (.inr rfl)
  | zeroPage | zeroPageX | zeroPageY | absolute | indirectX => exact absurd h Bool.false_ne_true

/-- The low byte of an IndirectY base is the byte at the pointer, wherever its high byte is read (R110). -/
theorem indirectY_pageCrossed_iff (b : Byte) (s : State) :
    (MemMode.indirectY b).pageCrossed s = true ↔
      (s.readByte (BitVec.ofNat 16 b.toNat)).toNat + s.y.toNat ≥ 256 := by
  refine (indexed_pageCrossed_iff _ s.y).trans ?_
  rw [← loByte_toNat, loByte_word, word_zero_eq_ofNat]

/-- Settles O24: the three modes report what `indexed` does, of their base and index register. -/
theorem pageCrossedModes : Obligations.PageCrossedModes :=
  ⟨fun _ _ => mode_of_pageCrossed,
    fun s w => ⟨indexed_pageCrossed_iff w s.x, indexed_pageCrossed_iff w s.y⟩,
    fun s b => indirectY_pageCrossed_iff b s, fun _ _ => rfl, fun _ _ => rfl⟩

end Sys2Proof.Machine

end EffectiveAddresses

/-! PROOFS of the family 41_load_store.md. What a read instruction costs in the modes that pay for a page crossing, what a
store leaves in memory, and the exact next state of the loads and stores. -/

/-! ### The loads (R33, R130 to R132, R361)

The obligation writes PC and Cycles out by the operand; the model has them by the instruction's length and cost. The two
agree where the instruction pays in every mode in which its operand can cross a page. -/

section Loads

namespace Sys2Proof.Machine

open Sys2Proof.Claims

theorem Flags.nz_eq_setNZ (p : Flags) (v : Byte) : nz p v = p.setNZ v := by
  rw [nz, Flags.setNZ, beq_eq_decide]

/-- R102, R113: an Immediate operand reports no crossing. -/
theorem readOperand_mode_of_pageCrossed {o : ReadOperand} {s : State} (h : o.pageCrossed s = true) :
    o.mode = .absoluteX ∨ o.mode = .absoluteY ∨ o.mode = .indirectY := by
  cases o with
  | immediate v => cases h
  | memory m => exact mode_of_pageCrossed h

/-- An instruction with the modes of LDA pays in all three modes that report a crossing. -/
theorem lda_pagePenalised_of_pageCrossed {o : ReadOperand} {s : State} (h : o.pageCrossed s = true) :
    (Instr.lda o).pagePenalised = true := by
  obtain hm | hm | hm := readOperand_mode_of_pageCrossed h
  · simp [Instr.pagePenalised, hm]
  · simp [Instr.pagePenalised, hm]
  · simp [Instr.pagePenalised, hm]

/-- AbsoluteY is the one mode of LDX that reports a crossing. -/
theorem ldx_pagePenalised_of_pageCrossed {o : ReadOperand} {s : State} (hw : (Instr.ldx o).wellFormed = true)
    (h : o.pageCrossed s = true) : (Instr.ldx o).pagePenalised = true := by
  obtain hm | hm | hm := readOperand_mode_of_pageCrossed h
  · simp [Instr.wellFormed, ldxModes, hm] at hw
  · simp [Instr.pagePenalised, hm]
  · simp [Instr.wellFormed, ldxModes, hm] at hw

/-- AbsoluteX is the one mode of LDY that reports a crossing. -/
theorem ldy_pagePenalised_of_pageCrossed {o : ReadOperand} {s : State} (hw : (Instr.ldy o).wellFormed = true)
    (h : o.pageCrossed s = true) : (Instr.ldy o).pagePenalised = true := by
  obtain hm | hm | hm := readOperand_mode_of_pageCrossed h
  · simp [Instr.pagePenalised, hm]
  · simp [Instr.wellFormed, ldyModes, hm] at hw
  · simp [Instr.wellFormed, ldyModes, hm] at hw

/-- R360, R361: where an instruction pays for each crossing of its operand, the PC and Cycles of `readDone` are those of
the model's `toPcNext` and `cost`. -/
theorem readDone_of_pays {i : Instr} {o : ReadOperand} {s : State} (hmode : i.mode = o.mode)
    (hbase : i.baseCycles = o.readCycles) (hpays : o.pageCrossed s = true → i.pagePenalised = true) (t : State) :
    readDone true o s t =
      { t with pc := (s.toPcNext i).pc, cycles := s.cycles + BitVec.ofNat 64 (cost i (o.pageCrossed s) 0) } := by
  have hpenalty : (i.pagePenalised && o.pageCrossed s) = o.pageCrossed s := Bool.and_eq_right_iff_imp.2 hpays
  simp only [readDone, State.toPcNext_pc, Instr.length, cost, pagePenalty, hmode, hbase, hpenalty, Bool.true_and,
    Nat.add_zero]

/-- R130. -/
theorem exec_lda (o : ReadOperand) (s : State) :
    exec (.lda o) s = .next (readDone true o s { s with a := o.value s, p := nz s.p (o.value s) }) := by
  rw [readDone_of_pays (i := .lda o) rfl rfl lda_pagePenalised_of_pageCrossed, Flags.nz_eq_setNZ]
  rfl

/-- R131. -/
theorem exec_ldx {o : ReadOperand} (hw : (Instr.ldx o).wellFormed = true) (s : State) :
    exec (.ldx o) s = .next (readDone true o s { s with x := o.value s, p := nz s.p (o.value s) }) := by
  rw [readDone_of_pays (i := .ldx o) rfl rfl (ldx_pagePenalised_of_pageCrossed hw), Flags.nz_eq_setNZ]
  rfl

/-- R132. -/
theorem exec_ldy {o : ReadOperand} (hw : (Instr.ldy o).wellFormed = true) (s : State) :
    exec (.ldy o) s = .next (readDone true o s { s with y := o.value s, p := nz s.p (o.value s) }) := by
  rw [readDone_of_pays (i := .ldy o) rfl rfl (ldy_pagePenalised_of_pageCrossed hw), Flags.nz_eq_setNZ]
  rfl

/-- Settles O31: each opcode is one cell of the grid of R79, and each load pays in every mode of its own that can cross a
page. -/
theorem loadInstructions : Obligations.LoadInstructions :=
  ⟨fun _ _ => ⟨rfl, rfl, rfl, rfl, rfl, rfl, rfl, rfl⟩, fun _ _ => ⟨rfl, rfl, rfl, rfl, rfl⟩,
    fun _ _ => ⟨rfl, rfl, rfl, rfl, rfl⟩, fun o s _ => exec_lda o s, fun _ s hw => exec_ldx hw s,
    fun _ s hw => exec_ldy hw s⟩

end Sys2Proof.Machine

end Loads

/-! ### The stores (R63, R135 to R137) -/

section Stores

namespace Sys2Proof.Machine

open Sys2Proof.Claims

/-- A store whose instruction pays no page penalty costs its base cost in every mode. -/
theorem storeForm_eq_next {i : Instr} {m : MemMode} (hmode : i.mode = m.mode) (hbase : i.baseCycles = m.storeCycles)
    (hfree : i.pagePenalised = false) (v : Byte) (s : State) :
    storeForm i m v s = .next (storeDone m s { s with mem := s.mem.write (m.ea s).toNat v }) := by
  have hcost : cost i (m.pageCrossed s) 0 = m.storeCycles := by simp [cost, pagePenalty, hfree, hbase]
  rw [storeDone, ← hcost, ← hmode]
  rfl

/-- R63, R135: what was stored at EA is what is read there after the instruction. -/
theorem readByte_ea_of_storeForm {i : Instr} {m : MemMode} {v : Byte} {s t : State} (h : storeForm i m v s = .next t) :
    t.readByte (m.ea s) = v := by
  rw [storeForm_next h]
  exact State.readByte_writeByte_same (s.toPcNext i) (m.ea s) v

/-- Settles O32: the three stores are `storeForm` of their register, and the next fetch reads its opcode at EA. -/
theorem storeInstructions : Obligations.StoreInstructions := by
  refine ⟨fun _ _ => ⟨rfl, rfl, rfl, rfl, rfl, rfl, rfl, rfl⟩, fun _ _ => ⟨rfl, rfl, rfl⟩, fun _ _ => ⟨rfl, rfl, rfl⟩,
    fun m s _ => storeForm_eq_next (i := .sta m) rfl rfl rfl s.a s,
    fun m s _ => storeForm_eq_next (i := .stx m) rfl rfl rfl s.x s,
    fun m s _ => storeForm_eq_next (i := .sty m) rfl rfl rfl s.y s, fun m s t _ h hpc => ?_⟩
  have hopcode : t.readByte t.pc = s.a := hpc ▸ readByte_ea_of_storeForm (i := .sta m) h
  rw [State.fetch, hopcode]

end Sys2Proof.Machine

end Stores

/-! PROOFS of the family 42_logical_shift_incdec_bit.md. The exact next state of each instruction of the family, and the
nine rotations that restore a target and its carry. -/

/-! ### Sums of bytes, and what an instruction without a page penalty costs (R160 to R165, R361) -/

section FreeOfPenalty

namespace Sys2Proof.Machine

open Sys2Proof.Claims

/-- An increment of a byte, modulo 256. -/
theorem byte_add_one (v : Byte) : v + 1 = BitVec.ofNat 8 ((v.toNat + 1) % 256) := sp_add_one v

/-- A decrement of a byte is an addition of 255, modulo 256. -/
theorem byte_add_255 (v : Byte) : v + 255 = BitVec.ofNat 8 ((v.toNat + 255) % 256) := by
  rw [← sp_sub_one, BitVec.sub_eq_add_neg]
  rfl

theorem byte_ofNat_mod (n : Nat) : BitVec.ofNat 8 (n % 256) = BitVec.ofNat 8 n := by
  apply BitVec.eq_of_toNat_eq
  rw [BitVec.toNat_ofNat, BitVec.toNat_ofNat]
  exact Nat.mod_mod n 256

theorem cost_of_not_pagePenalised {i : Instr} (hfree : i.pagePenalised = false) (pageCrossed : Bool) :
    cost i pageCrossed 0 = i.baseCycles := by
  simp [cost, pagePenalty, hfree]

/-- R360, R361: PC and Cycles of `readDone` for an instruction that pays for no crossing. -/
theorem readDone_of_not_pagePenalised {i : Instr} {o : ReadOperand} {s : State} (hmode : i.mode = o.mode)
    (hbase : i.baseCycles = o.readCycles) (hfree : i.pagePenalised = false) (t : State) :
    readDone false o s t =
      { t with pc := (s.toPcNext i).pc, cycles := s.cycles + BitVec.ofNat 64 (cost i (o.pageCrossed s) 0) } := by
  simp [readDone, Instr.length, cost_of_not_pagePenalised hfree, hmode, hbase]

/-- R154, R160: a read-modify-write of memory costs its base cost in every mode. -/
theorem rmwDone_of_not_pagePenalised {i : Instr} {m : RmwMode} {s : State} (hmode : i.mode = m.toMem.mode)
    (hbase : i.baseCycles = m.rmwCycles) (hfree : i.pagePenalised = false) (t : State) :
    rmwDone m s t =
      { t with pc := (s.toPcNext i).pc, cycles := s.cycles + BitVec.ofNat 64 (cost i (m.pageCrossed s) 0) } := by
  simp [rmwDone, Instr.length, cost_of_not_pagePenalised hfree, hmode, hbase]

end Sys2Proof.Machine

end FreeOfPenalty

/-! ### AND, ORA, EOR and BIT (R150 to R152, R168) -/

section Logic

namespace Sys2Proof.Machine

open Sys2Proof.Claims

/-- An instruction that combines A with its operand, and pays for each crossing of the operand. -/
theorem readForm_combine_eq_next {i : Instr} {o : ReadOperand} {s : State} (hmode : i.mode = o.mode)
    (hbase : i.baseCycles = o.readCycles) (hpays : o.pageCrossed s = true → i.pagePenalised = true)
    (f : Byte → Byte → Byte) :
    readForm i o (fun v t => (t.setA (f t.a v)).setNZ (f t.a v)) s =
      .next (readDone true o s { s with a := f s.a (o.value s), p := nz s.p (f s.a (o.value s)) }) := by
  rw [readDone_of_pays hmode hbase hpays, Flags.nz_eq_setNZ]
  rfl

/-- Settles O33: the three pay in the modes in which LDA does. -/
theorem logicalInstructions : Obligations.LogicalInstructions :=
  ⟨fun _ _ => ⟨rfl, rfl, rfl, rfl, rfl, rfl, rfl, rfl⟩, fun _ _ => ⟨rfl, rfl, rfl, rfl, rfl, rfl, rfl, rfl⟩,
    fun _ _ => ⟨rfl, rfl, rfl, rfl, rfl, rfl, rfl, rfl⟩,
    fun o _ _ => readForm_combine_eq_next (i := .and o) rfl rfl lda_pagePenalised_of_pageCrossed (· &&& ·),
    fun o _ _ => readForm_combine_eq_next (i := .ora o) rfl rfl lda_pagePenalised_of_pageCrossed (· ||| ·),
    fun o _ _ => readForm_combine_eq_next (i := .eor o) rfl rfl lda_pagePenalised_of_pageCrossed (· ^^^ ·)⟩

/-- R168, with the flags of BIT as a record. -/
theorem exec_bit (m : MemMode) (s : State) :
    exec (.bit m) s = .next (readDone false (.memory m) s { s with p := s.p.afterBit s.a (s.readByte (m.ea s)) }) := by
  rw [readDone_of_not_pagePenalised (i := .bit m) rfl rfl rfl]
  rfl

/-- Settles O38: no cell of the grid has an Immediate BIT, and BIT pays no penalty. -/
theorem bitInstruction : Obligations.BitInstruction := by
  refine ⟨fun _ _ => ⟨rfl, rfl, rfl⟩, fun m s _ => ?_⟩
  rw [exec_bit, Flags.afterBit, beq_eq_decide]

end Sys2Proof.Machine

end Logic

/-! ### Increments and decrements (R160 to R165) -/

section IncrementDecrement

namespace Sys2Proof.Machine

open Sys2Proof.Claims

theorem rmwForm_eq_next {i : Instr} {m : RmwMode} (hmode : i.mode = m.toMem.mode) (hbase : i.baseCycles = m.rmwCycles)
    (hfree : i.pagePenalised = false) (f : Byte → Byte) (s : State) :
    rmwForm i m f s = .next (rmwDone m s { s with
      mem := s.mem.write (m.ea s).toNat (f (s.readByte (m.ea s))), p := nz s.p (f (s.readByte (m.ea s))) }) := by
  rw [rmwDone_of_not_pagePenalised hmode hbase hfree, Flags.nz_eq_setNZ]
  rfl

/-- Settles O36: INC and DEC are `rmwForm` of a sum modulo 256. -/
theorem memoryIncrementDecrement : Obligations.MemoryIncrementDecrement := by
  refine ⟨fun _ _ => ⟨rfl, rfl, rfl, rfl⟩, fun _ _ => ⟨rfl, rfl, rfl, rfl⟩, fun m s => ⟨?_, ?_⟩⟩
  · rw [← byte_add_one]
    exact rmwForm_eq_next (i := .inc m) rfl rfl rfl (· + 1) s
  · rw [← byte_add_255]
    exact rmwForm_eq_next (i := .dec m) rfl rfl rfl (· + 255) s

/-- Settles O37: each of the four sets its register, Z and N to a sum modulo 256. -/
theorem registerIncrementDecrement : Obligations.RegisterIncrementDecrement := by
  refine ⟨fun _ _ => rfl, fun _ _ => rfl, fun _ _ => rfl, fun _ _ => rfl, fun s => ?_⟩
  simp only [← byte_add_one, ← byte_add_255, Flags.nz_eq_setNZ]
  exact ⟨rfl, rfl, rfl, rfl⟩

end Sys2Proof.Machine

end IncrementDecrement

/-! ### Shifts and rotates (R154 to R158) -/

section Shifts

namespace Sys2Proof.Machine

open Sys2Proof.Claims

theorem Flags.nz_carry_eq_afterShift (p : Flags) (r : Carried) :
    nz { p with c := r.carry } r.result = p.afterShift r := by
  rw [Flags.nz_eq_setNZ, Flags.afterShift]

/-- A shift or rotate of A costs 2 cycles. -/
theorem shiftForm_accumulator_eq_next {i : Instr} (hmode : i.mode = .accumulator) (hbase : i.baseCycles = 2)
    (hfree : i.pagePenalised = false) (f : Byte → Bool → Carried) (s : State) :
    shiftForm i .accumulator f s = .next (oneByteDone 2 s { s with
      a := (f s.a s.p.c).result, p := nz { s.p with c := (f s.a s.p.c).carry } (f s.a s.p.c).result }) := by
  have hlength : i.length = 1 := by rw [Instr.length, hmode]; rfl
  rw [Flags.nz_carry_eq_afterShift, oneByteDone, ← hbase, ← cost_of_not_pagePenalised hfree false, shiftForm, complete,
    State.toPcNext, hlength]
  rfl

/-- A shift or rotate of memory writes its result back to EA and costs the base cost of its mode. -/
theorem shiftForm_memory_eq_next {i : Instr} {m : RmwMode} (hmode : i.mode = m.toMem.mode)
    (hbase : i.baseCycles = m.rmwCycles) (hfree : i.pagePenalised = false) (f : Byte → Bool → Carried) (s : State) :
    shiftForm i (.memory m) f s = .next (rmwDone m s { s with
      mem := s.mem.write (m.ea s).toNat (f (s.readByte (m.ea s)) s.p.c).result
      p := nz { s.p with c := (f (s.readByte (m.ea s)) s.p.c).carry } (f (s.readByte (m.ea s)) s.p.c).result }) := by
  rw [Flags.nz_carry_eq_afterShift, rmwDone_of_not_pagePenalised hmode hbase hfree]
  rfl

/-- Settles O34: the four are `shiftForm` of their operation; the byte of a number keeps it modulo 256. -/
theorem shiftInstructions : Obligations.ShiftInstructions := by
  refine ⟨⟨fun _ _ => rfl, fun _ _ => ⟨rfl, rfl, rfl, rfl⟩⟩, ⟨fun _ _ => rfl, fun _ _ => ⟨rfl, rfl, rfl, rfl⟩⟩,
    ⟨fun _ _ => rfl, fun _ _ => ⟨rfl, rfl, rfl, rfl⟩⟩, ⟨fun _ _ => rfl, fun _ _ => ⟨rfl, rfl, rfl, rfl⟩⟩,
    fun s => ?_, fun m s => ?_⟩
  · simp only [byte_ofNat_mod]
    exact ⟨shiftForm_accumulator_eq_next (i := .asl .accumulator) rfl rfl rfl (fun v _ => shiftLeft v) s,
      shiftForm_accumulator_eq_next (i := .lsr .accumulator) rfl rfl rfl (fun v _ => shiftRight v) s,
      shiftForm_accumulator_eq_next (i := .rol .accumulator) rfl rfl rfl rotateLeft s,
      shiftForm_accumulator_eq_next (i := .ror .accumulator) rfl rfl rfl rotateRight s⟩
  · simp only [byte_ofNat_mod]
    exact ⟨shiftForm_memory_eq_next (i := .asl (.memory m)) rfl rfl rfl (fun v _ => shiftLeft v) s,
      shiftForm_memory_eq_next (i := .lsr (.memory m)) rfl rfl rfl (fun v _ => shiftRight v) s,
      shiftForm_memory_eq_next (i := .rol (.memory m)) rfl rfl rfl rotateLeft s,
      shiftForm_memory_eq_next (i := .ror (.memory m)) rfl rfl rfl rotateRight s⟩

end Sys2Proof.Machine

end Shifts

/-! ### Nine rotations (R157)

A byte with the carry above it is a ring of nine bits, and a ROL turns the ring by one place. -/

section RotationRing

namespace Sys2Proof

open Machine

/-- The byte a shift or rotate works on (R154). -/
def ShiftOperand.value (o : ShiftOperand) (s : State) : Byte :=
  match o with
  | .accumulator => s.a
  | .memory m => s.readByte (m.ea s)

/-- The modes of a read-modify-write operand read no register but X. -/
theorem RmwMode.ea_of_x_eq (m : RmwMode) {s t : State} (h : t.x = s.x) : m.ea t = m.ea s := by
  cases m with
  | zeroPage | absolute => rfl
  | zeroPageX b => exact congrArg (fun x => word 0x00 (b + x)) h
  | absoluteX w => exact congrArg (fun x => (indexed w x).ea) h

theorem ShiftOperand.value_memory_of_x_eq (m : RmwMode) {s t : State} (h : t.x = s.x) :
    (ShiftOperand.memory m).value t = t.readByte (m.ea s) := by
  rw [ShiftOperand.value, m.ea_of_x_eq h]

end Sys2Proof

namespace Sys2Proof.Machine

open Sys2Proof.Claims

theorem rotateLeft_zero {w : Nat} (x : BitVec w) : x.rotateLeft 0 = x := by
  refine BitVec.eq_of_getMsbD_eq fun k hk => ?_
  rw [BitVec.getMsbD_rotateLeft, Nat.zero_add, Nat.mod_eq_of_lt hk, decide_eq_true hk, Bool.true_and]

theorem rotateLeft_width {w : Nat} (x : BitVec w) : x.rotateLeft w = x := by
  rw [← BitVec.rotateLeft_mod_eq_rotateLeft, Nat.mod_self, rotateLeft_zero]

theorem rotateLeft_one_rotateLeft {w : Nat} (x : BitVec w) (n : Nat) :
    (x.rotateLeft 1).rotateLeft n = x.rotateLeft (n + 1) := by
  refine BitVec.eq_of_getMsbD_eq fun k hk => ?_
  have hplace : (1 + (n + k) % w) % w = (n + 1 + k) % w := by
    rw [Nat.add_mod_mod]
    congr 1
    omega
  have hlt : (n + k) % w < w := Nat.mod_lt _ (Nat.zero_lt_of_lt hk)
  simp only [BitVec.getMsbD_rotateLeft, hplace, hlt, decide_true, Bool.true_and]

/-- The top bit goes to the bottom. -/
theorem cons_rotateLeft_one {w : Nat} (c : Bool) (v : BitVec w) : (BitVec.cons c v).rotateLeft 1 = v.concat c := by
  refine BitVec.eq_of_getMsbD_eq fun k hk => ?_
  obtain hlast | hlt := Nat.eq_or_lt_of_le (Nat.le_of_lt_succ hk)
  · simp [BitVec.getMsbD_rotateLeft, BitVec.getMsbD_concat, hlast, Nat.add_comm]
  · have hplace : (1 + k) % (w + 1) = k + 1 := by rw [Nat.add_comm, Nat.mod_eq_of_lt (Nat.succ_lt_succ hlt)]
    simp [BitVec.getMsbD_rotateLeft, BitVec.getMsbD_concat, hplace, hk, hlt]

/-- A byte with the carry above it: the nine bits that ROL rotates. -/
def carryRing (c : Bool) (v : Byte) : BitVec 9 := BitVec.cons c v

theorem carryRing_inj {c c' : Bool} {v v' : Byte} (h : carryRing c v = carryRing c' v') : v = v' ∧ c = c' :=
  ⟨by simpa [carryRing] using congrArg (BitVec.setWidth 8) h, by simpa [carryRing] using congrArg BitVec.msb h⟩

/-- The bit shifted out and the result are the old byte with the old carry below it. -/
theorem carryRing_rotateLeft (v : Byte) (c : Bool) :
    carryRing (rotateLeft v c).carry (rotateLeft v c).result = (carryRing c v).rotateLeft 1 := by
  have hcarry : (rotateLeft v c).carry = (v.concat c).msb := by
    rw [BitVec.msb_concat]
    rfl
  have hresult : (rotateLeft v c).result = (v.concat c).setWidth 8 := by
    apply BitVec.eq_of_toNat_eq
    rw [BitVec.toNat_setWidth, BitVec.toNat_concat]
    exact BitVec.toNat_ofNat _ 8
  rw [carryRing, hcarry, hresult, BitVec.cons_msb_setWidth, carryRing, cons_rotateLeft_one]

/-- A ROL puts the rotated target back and the bit shifted out into C, and leaves X. -/
theorem exec_rol_target (o : ShiftOperand) (s : State) :
    ∃ t, exec (.rol o) s = .next t ∧ t.x = s.x ∧
      o.value t = (rotateLeft (o.value s) s.p.c).result ∧ t.p.c = (rotateLeft (o.value s) s.p.c).carry := by
  cases o with
  | accumulator => exact ⟨_, rfl, rfl, rfl, rfl⟩
  | memory m =>
    refine ⟨_, shiftForm_memory_eq_next (i := .rol (.memory m)) rfl rfl rfl rotateLeft s, rfl, ?_, rfl⟩
    refine (ShiftOperand.value_memory_of_x_eq m (s := s) ?_).trans ?_
    · rfl
    · exact Memory.read_write_same s.mem (m.ea s).toNat _

/-- `n` ROLs of one target turn its ring by `n` places; X stays, so that each has the same target. -/
theorem repeated_rol_turns_carryRing (o : ShiftOperand) (n : Nat) (s : State) :
    ∃ t, repeated n (.rol o) s = .next t ∧ t.x = s.x ∧
      carryRing t.p.c (o.value t) = (carryRing s.p.c (o.value s)).rotateLeft n := by
  induction n generalizing s with
  | zero => exact ⟨s, rfl, rfl, (rotateLeft_zero _).symm⟩
  | succ n ih =>
    obtain ⟨u, hu, hux, hvalue, hcarry⟩ := exec_rol_target o s
    obtain ⟨t, ht, htx, hring⟩ := ih u
    refine ⟨t, ?_, htx.trans hux, ?_⟩
    · rw [repeated, hu]
      exact ht
    · rw [hring, hvalue, hcarry, carryRing_rotateLeft, rotateLeft_one_rotateLeft]

/-- Nine places are the whole ring. -/
theorem repeated_nine_rol (o : ShiftOperand) (s : State) :
    ∃ t, repeated 9 (.rol o) s = .next t ∧ t.x = s.x ∧ o.value t = o.value s ∧ t.p.c = s.p.c := by
  obtain ⟨t, ht, htx, hring⟩ := repeated_rol_turns_carryRing o 9 s
  rw [rotateLeft_width] at hring
  exact ⟨t, ht, htx, carryRing_inj hring⟩

/-- Settles O35: nine ROLs turn the ring of target and carry once round; X, and with it EA, stays. -/
theorem nineRotatesRestore : Obligations.NineRotatesRestore := by
  refine ⟨fun s => ?_, fun m s => ?_⟩
  · obtain ⟨t, ht, -, hrestored⟩ := repeated_nine_rol .accumulator s
    exact ⟨t, ht, hrestored⟩
  · obtain ⟨t, ht, htx, hvalue, hcarry⟩ := repeated_nine_rol (.memory m) s
    exact ⟨t, ht, (ShiftOperand.value_memory_of_x_eq m htx).symm.trans hvalue, hcarry⟩

end Sys2Proof.Machine

end RotationRing

/-! PROOFS of the family 43_arithmetic_compare.md. The binary and the decimal sums and differences in numbers, and the exact
next state of ADC, SBC and the compares. -/

/-! ### Binary addition and subtraction (R180, R182, R187)

Bit 7 of a byte says whether its number is 128 or more, so a rule about bit 7 is one about the sum of the operands; a
subtraction is an addition of the complement, which is 255 less the operand. -/

section BinaryArithmetic

namespace Sys2Proof.Machine

theorem addBinary_result_toNat (a m : Byte) (c : Bool) :
    (addBinary a m c).result.toNat = (a.toNat + m.toNat + c.toNat) % 256 :=
  BitVec.toNat_ofNat _ 8

theorem addBinary_carry_iff (a m : Byte) (c : Bool) :
    (addBinary a m c).carry = true ↔ a.toNat + m.toNat + c.toNat > 255 :=
  decide_eq_true_iff

/-- V where the operands agree in sign and the truncated result does not. -/
theorem addBinary_overflow_iff (a m : Byte) (c : Bool) :
    (addBinary a m c).overflow = true ↔
      a.getLsbD 7 = m.getLsbD 7 ∧ (addBinary a m c).result.getLsbD 7 ≠ a.getLsbD 7 := by
  simp only [addBinary, Bool.and_eq_true, beq_iff_eq, bne_iff_ne]

theorem and_0x80_ne_zero_iff (v : Byte) : v &&& 0x80 ≠ 0 ↔ v.getLsbD 7 = true := by
  have hbit : v &&& 0x80 = if v.getLsbD 7 then 0x80 else 0 := BitVec.and_twoPow v 7
  rw [hbit]
  cases v.getLsbD 7 with
  | false => decide
  | true => decide

/-- The two forms of V in R180, on the sign bits of the operands and the result. -/
theorem sign_change_iff_xor (a m r : Bool) : (a = m ∧ r ≠ a) ↔ ((a ^^ r) && (m ^^ r)) = true := by
  decide +revert

/-- Settles O26: the sum is narrowed to 8 bits, and both forms of V say the same of the sign bits. -/
theorem binaryAddition : Obligations.BinaryAddition := by
  intro a m c
  refine ⟨addBinary_result_toNat a m c, addBinary_carry_iff a m c, addBinary_overflow_iff a m c, ?_⟩
  rw [addBinary_overflow_iff, and_0x80_ne_zero_iff, BitVec.getLsbD_and, BitVec.getLsbD_xor, BitVec.getLsbD_xor]
  exact sign_change_iff_xor _ _ _

theorem byte_not_toNat (m : Byte) : (~~~m).toNat = 255 - m.toNat := BitVec.toNat_not

theorem subBinary_result_toNat (a m : Byte) (c : Bool) :
    ((subBinary a m c).result.toNat : Int) = ((a.toNat : Int) - m.toNat - (1 - c.toNat)) % 256 := by
  have := m.isLt
  rw [subBinary, addBinary_result_toNat, byte_not_toNat]
  omega

theorem subBinary_carry_iff (a m : Byte) (c : Bool) :
    (subBinary a m c).carry = true ↔ (a.toNat : Int) - m.toNat - (1 - c.toNat) ≥ 0 := by
  have := m.isLt
  rw [subBinary, addBinary_carry_iff, byte_not_toNat]
  omega

/-- The complement has the other sign. -/
theorem subBinary_overflow_iff (a m : Byte) (c : Bool) :
    (subBinary a m c).overflow = true ↔
      a.getLsbD 7 ≠ m.getLsbD 7 ∧ (subBinary a m c).result.getLsbD 7 ≠ a.getLsbD 7 := by
  have hsign : (~~~m).getLsbD 7 = !m.getLsbD 7 := BitVec.getLsbD_not
  rw [subBinary, addBinary_overflow_iff, hsign, Bool.eq_not]

/-- Settles O27: the complement of the operand turns each rule of the addition into that of a subtraction with borrow. -/
theorem binarySubtraction : Obligations.BinarySubtraction := fun a m c =>
  ⟨rfl, subBinary_result_toNat a m c, subBinary_carry_iff a m c, subBinary_overflow_iff a m c⟩

theorem byte_toInt (v : Byte) : v.toInt = if v.toNat < 128 then (v.toNat : Int) else (v.toNat : Int) - 256 := by
  have := v.isLt
  rw [BitVec.toInt_eq_toNat_cond]
  split
  · omega
  · omega

theorem byte_not_toInt (m : Byte) : (~~~m).toInt = -m.toInt - 1 := by
  have := m.isLt
  rw [byte_toInt, byte_toInt, byte_not_toNat]
  omega

/-- The sign of the narrowed sum is wrong exactly where the exact sum has no place in a signed byte. -/
theorem addBinary_overflow_iff_toInt (a m : Byte) (c : Bool) :
    (addBinary a m c).overflow = true ↔
      a.toInt + m.toInt + c.toNat < -128 ∨ a.toInt + m.toInt + c.toNat > 127 := by
  have ha := a.isLt
  have hm := m.isLt
  have hc := c.toNat_le
  simp only [addBinary_overflow_iff, getLsbD_seven_eq_decide, addBinary_result_toNat, byte_toInt, ne_eq,
    decide_eq_decide]
  omega

/-- Settles O28: the signed value of the complement is one below the negative of the operand's. -/
theorem overflowIsSignedOverflow : Obligations.OverflowIsSignedOverflow := by
  refine fun a m c => ⟨addBinary_overflow_iff_toInt a m c, ?_⟩
  have hdifference : a.toInt - m.toInt - (1 - c.toNat) = a.toInt + (~~~m).toInt + c.toNat := by
    rw [byte_not_toInt]
    omega
  rw [subBinary, addBinary_overflow_iff_toInt, hdifference]

end Sys2Proof.Machine

end BinaryArithmetic

/-! ### Decimal addition and subtraction (R181, R183)

The model writes the nibble algorithms in quotients and remainders of 16, the spec in masks and shifts. On decimal digits
each nibble's correction by 6 gives the sum or difference of the digits modulo 10. -/

section DecimalArithmetic

namespace Sys2Proof.Machine

open Sys2Proof.Claims

theorem low_nibble_toNat (v : Byte) : (v &&& 0x0F).toNat = v.toNat % 16 := by
  rw [BitVec.toNat_and]
  exact Nat.and_two_pow_sub_one_eq_mod v.toNat 4

theorem high_nibble_toNat (v : Byte) : (v >>> 4).toNat = v.toNat / 16 := by
  rw [BitVec.toNat_ushiftRight]
  exact Nat.shiftRight_eq_div_pow v.toNat 4

/-- Two nibbles joined by a shift and an `or`. -/
theorem shift_or_nibble (hi : Nat) {lo : Nat} (hlo : lo < 16) : (hi <<< 4) ||| lo = hi * 16 + lo := by
  rw [← Nat.shiftLeft_add_eq_or_of_lt (show lo < 2 ^ 4 from hlo), Nat.shiftLeft_eq]

theorem shift_or_masked (hi lo : Nat) : ((hi &&& 0x0F) <<< 4) ||| (lo &&& 0x0F) = hi % 16 * 16 + lo % 16 := by
  rw [Nat.and_two_pow_sub_one_eq_mod hi 4, Nat.and_two_pow_sub_one_eq_mod lo 4]
  exact shift_or_nibble (hi % 16) (Nat.mod_lt lo (by decide))

/-- A sum of two digits and a carry, corrected: its nibble is the digit of the sum, and it carries out of the nibble
where the sum is no digit. -/
theorem digit_sum_corrected {n : Nat} (h : n ≤ 19) :
    (if n > 9 then n + 6 else n) % 16 = n % 10 ∧
    (if (if n > 9 then n + 6 else n) > 0x0F then 1 else 0) = n / 10 := by
  split
  case isTrue hn =>
    rw [if_pos (show n + 6 > 0x0F by omega)]
    omega
  case isFalse hn =>
    rw [if_neg (show ¬ n > 0x0F by omega)]
    omega

/-- On BCD inputs the nibble algorithm is the addition of decimal numbers digit by digit. -/
theorem addDecimal_of_isBcd {a m : Byte} (ha : isBcd a) (hm : isBcd m) (c : Bool) :
    let lo := a.toNat % 16 + m.toNat % 16 + c.toNat
    let hi := a.toNat / 16 + m.toNat / 16 + lo / 10
    addDecimal a m c = { result := BitVec.ofNat 8 (hi % 10 * 16 + lo % 10), carry := decide (hi > 9) } := by
  intro lo hi
  obtain ⟨haHigh, haLow⟩ := ha
  obtain ⟨hmHigh, hmLow⟩ := hm
  have hc := c.toNat_le
  have hlo : lo ≤ 19 := by omega
  have hhi : hi ≤ 19 := by omega
  obtain ⟨hloDigit, hloCarry⟩ := digit_sum_corrected hlo
  obtain ⟨hhiDigit, -⟩ := digit_sum_corrected hhi
  simp only [addDecimal]
  rw [hloDigit, hloCarry, hhiDigit]

/-- Settles O29: the masks and shifts are remainders and quotients, and the digits of a sum are those that digit-wise
addition gives. -/
theorem decimalAddition : Obligations.DecimalAddition := by
  refine ⟨fun a m c => ?_, fun a m c ha hm => ?_⟩
  · simp only [addDecimal, low_nibble_toNat, high_nibble_toNat, shift_or_masked]
  · rw [addDecimal_of_isBcd ha hm c, bcd, decide_eq_true_iff, decimalValue, decimalValue]
    refine ⟨congrArg (BitVec.ofNat 8) ?_, ?_⟩
    · omega
    · omega

/-- R183's nibbles are joined alike in the model's integers and in the spec's operators. -/
theorem ofInt_nibbles (hi lo : Int) :
    BitVec.ofInt 8 (hi % 16 * 16 + lo % 16) =
      BitVec.ofNat 8 (((hi % 16).toNat <<< 4) ||| (lo % 16).toNat) := by
  rw [shift_or_nibble _ (by omega), ← BitVec.ofInt_natCast]
  refine congrArg (BitVec.ofInt 8) ?_
  omega

/-- The borrow out of both nibbles is the borrow out of the byte, decimal digits or not. -/
theorem subDecimal_carry (a m : Byte) (c : Bool) : (subDecimal a m c).carry = (subBinary a m c).carry := by
  have hc := c.toNat_le
  rw [Bool.eq_iff_iff, subBinary_carry_iff]
  simp only [subDecimal, decide_eq_true_eq]
  omega

/-- A difference of two digits and a borrow, corrected: its nibble is the digit of the difference, and it borrows where
the difference is negative. -/
theorem digit_difference_corrected {n : Int} (hlow : -10 ≤ n) (hhigh : n ≤ 9) :
    (if n < 0 then n - 6 else n) % 16 = n % 10 ∧ (if n < 0 then 1 else 0) = -(n / 10) := by
  split
  · omega
  · omega

/-- On BCD inputs the nibble algorithm is the subtraction of decimal numbers digit by digit. -/
theorem subDecimal_result_of_isBcd {a m : Byte} (ha : isBcd a) (hm : isBcd m) (c : Bool) :
    let lo : Int := (a.toNat % 16 : Nat) - (m.toNat % 16 : Nat) - (1 - c.toNat)
    let hi : Int := (a.toNat / 16 : Nat) - (m.toNat / 16 : Nat) + lo / 10
    (subDecimal a m c).result = BitVec.ofInt 8 (hi % 10 * 16 + lo % 10) := by
  intro lo hi
  obtain ⟨haHigh, haLow⟩ := ha
  obtain ⟨hmHigh, hmLow⟩ := hm
  have hc := c.toNat_le
  obtain ⟨hloDigit, hloBorrow⟩ := digit_difference_corrected (n := lo) (by omega) (by omega)
  obtain ⟨hhiDigit, -⟩ := digit_difference_corrected (n := hi) (by omega) (by omega)
  simp only [subDecimal]
  rw [hloDigit, hloBorrow, sub_neg_eq_add, hhiDigit]

/-- Settles O30: the borrow is that of the byte, and the digits of a difference are those that digit-wise subtraction
gives. -/
theorem decimalSubtraction : Obligations.DecimalSubtraction := by
  refine ⟨fun a m c => ?_, subDecimal_carry, fun a m c ha hm => ?_⟩
  · simp only [subDecimal, low_nibble_toNat, high_nibble_toNat, ofInt_nibbles]
  · rw [subDecimal_result_of_isBcd ha hm c, bcd, decimalValue, decimalValue, ← BitVec.ofInt_natCast]
    refine congrArg (BitVec.ofInt 8) ?_
    omega

end Sys2Proof.Machine

end DecimalArithmetic

/-! ### ADC, SBC and the compares (R184 to R186, R190 to R192) -/

section ArithmeticInstructions

namespace Sys2Proof.Machine

open Sys2Proof.Claims

/-- R185, R186 with D clear. -/
theorem State.arithmetic_of_binary {s : State} (hd : s.p.d = false) (binary : AluSum) (decimal : Carried) :
    s.arithmetic binary decimal =
      { s with
        a := binary.result, p := nz { s.p with c := binary.carry, v := binary.overflow } binary.result } := by
  simp [State.arithmetic_eq, hd, Flags.nz_eq_setNZ, Flags.setNZ]

/-- R184 to R186 with D set. -/
theorem State.arithmetic_of_decimal {s : State} (hd : s.p.d = true) (binary : AluSum) (decimal : Carried) :
    s.arithmetic binary decimal =
      { s with
        a := decimal.result, p := nz { s.p with c := decimal.carry, v := binary.overflow } decimal.result } := by
  simp [State.arithmetic_eq, hd, Flags.nz_eq_setNZ, Flags.setNZ]

/-- ADC and SBC pay for each crossing of their operand; what they compute, they compute from the state before them. -/
theorem readForm_arithmetic_eq_next {i : Instr} {o : ReadOperand} {s : State} (hmode : i.mode = o.mode)
    (hbase : i.baseCycles = o.readCycles) (hpays : o.pageCrossed s = true → i.pagePenalised = true)
    (binary : Byte → Byte → Bool → AluSum) (decimal : Byte → Byte → Bool → Carried) :
    readForm i o (fun m t => t.arithmetic (binary t.a m t.p.c) (decimal t.a m t.p.c)) s =
      .next (readDone true o s (s.arithmetic (binary s.a (o.value s) s.p.c) (decimal s.a (o.value s) s.p.c))) := by
  rw [readDone_of_pays hmode hbase hpays]
  simp only [readForm, State.arithmetic_eq]
  rfl

/-- R185. -/
theorem exec_adc (o : ReadOperand) (s : State) :
    exec (.adc o) s = .next (readDone true o s
      (s.arithmetic (addBinary s.a (o.value s) s.p.c) (addDecimal s.a (o.value s) s.p.c))) :=
  readForm_arithmetic_eq_next (i := .adc o) rfl rfl lda_pagePenalised_of_pageCrossed addBinary addDecimal

/-- R186. -/
theorem exec_sbc (o : ReadOperand) (s : State) :
    exec (.sbc o) s = .next (readDone true o s
      (s.arithmetic (subBinary s.a (o.value s) s.p.c) (subDecimal s.a (o.value s) s.p.c))) :=
  readForm_arithmetic_eq_next (i := .sbc o) rfl rfl lda_pagePenalised_of_pageCrossed subBinary subDecimal

/-- Settles O39: D chooses between the two results of the addition. -/
theorem adcInstruction : Obligations.AdcInstruction := by
  refine ⟨fun _ _ => ⟨rfl, rfl, rfl, rfl, rfl, rfl, rfl, rfl⟩, fun o s _ => ⟨fun hd => ?_, fun hd => ?_⟩⟩
  · rw [exec_adc, State.arithmetic_of_binary hd]
  · rw [exec_adc, State.arithmetic_of_decimal hd]

/-- Settles O40: D chooses between the two results of the subtraction. -/
theorem sbcInstruction : Obligations.SbcInstruction := by
  refine ⟨fun _ _ => ⟨rfl, rfl, rfl, rfl, rfl, rfl, rfl, rfl⟩, fun o s _ => ⟨fun hd => ?_, fun hd => ?_⟩⟩
  · rw [exec_sbc, State.arithmetic_of_binary hd]
  · rw [exec_sbc, State.arithmetic_of_decimal hd]

/-- R190: CMP has the modes of LDA and pays in them as LDA does. -/
theorem exec_cmp (o : ReadOperand) (s : State) :
    exec (.cmp o) s = .next (readDone true o s { s with p := s.p.compare s.a (o.value s) }) := by
  rw [readDone_of_pays (i := .cmp o) rfl rfl lda_pagePenalised_of_pageCrossed]
  rfl

/-- R191. -/
theorem exec_cpx (o : ReadOperand) (s : State) :
    exec (.cpx o) s = .next (readDone false o s { s with p := s.p.compare s.x (o.value s) }) := by
  rw [readDone_of_not_pagePenalised (i := .cpx o) rfl rfl rfl]
  rfl

/-- R192. -/
theorem exec_cpy (o : ReadOperand) (s : State) :
    exec (.cpy o) s = .next (readDone false o s { s with p := s.p.compare s.y (o.value s) }) := by
  rw [readDone_of_not_pagePenalised (i := .cpy o) rfl rfl rfl]
  rfl

/-- Settles O41: each compare writes P alone, besides PC and Cycles. -/
theorem compareInstructions : Obligations.CompareInstructions :=
  ⟨fun _ _ => ⟨rfl, rfl, rfl, rfl, rfl, rfl, rfl, rfl⟩, fun _ _ => ⟨rfl, rfl, rfl⟩, fun _ _ => ⟨rfl, rfl, rfl⟩,
    fun o s _ => exec_cmp o s, fun o s _ => exec_cpx o s, fun o s _ => exec_cpy o s⟩

end Sys2Proof.Machine

end ArithmeticInstructions

/-! PROOFS of the family 44_stack.md. The exact next state of PHA, PLA, PHP and PLP, what PLP pulls after PHP, and the
words of the spec's examples. -/

/-! ### PHA, PLA, PHP and PLP (R210 to R213)

Each instruction is one push or one pull, followed by the PC and Cycles of a one-byte instruction. -/

section StackOperations

namespace Sys2Proof.Machine

open Sys2Proof.Claims

/-- R57: the address SP designates, as a number of page 1. -/
theorem stackAddr_eq_ofNat (sp : Byte) : stackAddr sp = BitVec.ofNat 16 (0x0100 + sp.toNat) := by
  rw [← stackAddr_toNat, BitVec.ofNat_toNat, BitVec.setWidth_eq]

/-- The statements' stack byte `k` above SP is read where the model's stack address lies. -/
theorem stackByte_eq_readByte (s : State) (k : Byte) : stackByte s k = s.readByte (stackAddr (s.sp + k)) := by
  rw [stackByte, stackAddr_eq_ofNat]

/-- A push written out: one byte of page 1, then SP one down. -/
theorem State.push_eq (s : State) (v : Byte) :
    s.push v = { s with mem := s.mem.write (0x0100 + s.sp.toNat) v, sp := s.sp - 1 } := by
  rw [← stackAddr_toNat]
  rfl

/-- R58: a pull returns the first stack byte above SP. -/
theorem State.pullByte_eq_stackByte (s : State) : s.pullByte = stackByte s 1 := (stackByte_eq_readByte s 1).symm

/-- R210. -/
theorem exec_pha (s : State) : exec .pha s = .next (oneByteDone 3 s (s.push s.a)) := rfl

/-- R211. -/
theorem exec_pla (s : State) :
    exec .pla s = .next (oneByteDone 4 s ((s.pulled.setA s.pullByte).setNZ s.pullByte)) := rfl

/-- R212. -/
theorem exec_php (s : State) : exec .php s = .next (oneByteDone 3 s (s.push s.p.pack)) := rfl

/-- R213. -/
theorem exec_plp (s : State) : exec .plp s = .next (oneByteDone 4 s (s.pulled.setP (Flags.unpack s.pullByte))) := rfl

/-- Settles O43: PLP pulls the byte PHP pushed, which no flag is part of, and unpacking undoes packing. -/
theorem phpThenPlpRestoresFlags : Obligations.PhpThenPlpRestoresFlags := by
  intro s t u q hphp hplp
  rw [exec_php] at hphp
  cases hphp
  rw [exec_plp] at hplp
  cases hplp
  have hpull : ({ oneByteDone 3 s (s.push s.p.pack) with p := q } : State).pullByte = s.p.pack :=
    State.pullByte_push s s.p.pack
  refine ⟨?_, ?_⟩
  · rw [hpull]
    exact Flags.unpack_pack s.p
  · exact BitVec.sub_add_cancel s.sp 1

/-- Settles O42: each of the four is its push or pull, written out in the stack bytes of page 1. -/
theorem stackInstructions : Obligations.StackInstructions := by
  refine ⟨fun _ _ => rfl, fun _ _ => rfl, fun _ _ => rfl, fun _ _ => rfl, fun s => ⟨?_, ?_, ?_, ?_⟩⟩
  · rw [exec_pha, State.push_eq]
  · rw [exec_pla, State.pullByte_eq_stackByte, Flags.nz_eq_setNZ]
    rfl
  · rw [exec_php, State.push_eq]
  · rw [exec_plp, State.pullByte_eq_stackByte]
    rfl

end Sys2Proof.Machine

end StackOperations

/-! ### Words from the spec's examples (R82, R102, R106, R210, R280) -/

section SampleWords

namespace Sys2Proof

/-- Settles O9: the opcode byte gives the length, and with it how many operand bytes are taken. -/
theorem sampleWordsDecode : Obligations.SampleWordsDecode :=
  ⟨decodeBytes_two 0x42 [] rfl, decodeBytes_two 0x10 [] rfl, decodeBytes_two 0x10 [] rfl,
    decodeBytes_three 0x34 0x12 [] rfl, decodeBytes_three 0xFF 0x15 [] rfl, decodeBytes_two 0x20 [] rfl,
    decodeBytes_one [] rfl, decodeBytes_two 0xFC [] rfl, decodeBytes_three 0x0B 0x06 [] rfl, decodeBytes_one [] rfl,
    decodeBytes_one [0x01] rfl, rfl⟩

end Sys2Proof

end SampleWords

/-! PROOFS of the family 45_control.md. The exact next state of the branches, JMP, JSR, RTS, RTI, BRK and NOP, and what a
push does to the stack bytes a later pull reads. -/

/-! ### The branches (R230 to R238, R362)

The eight differ in the flag they test alone: one lemma about the branch form is the meaning of each. -/

section Branches

namespace Sys2Proof.Machine

open Sys2Proof.Claims

/-- R15: `sext_16` is the sign extension of two's complement. -/
theorem sext16_eq_signExtend (b : Byte) : sext16 b = b.signExtend 16 := by
  apply BitVec.eq_of_toNat_eq
  rw [sext16_toNat, BitVec.toNat_signExtend, ← zext16, zext16_toNat, BitVec.msb_eq_decide]
  by_cases hpos : b.toNat < 128
  · simp [hpos, Nat.not_le.2 hpos]
  · simp [hpos, Nat.not_lt.1 hpos]

/-- Two addresses have the same high byte where they lie in the same page. -/
theorem hiByte_eq_iff {v w : Word} : hiByte v = hiByte w ↔ v.toNat / 256 = w.toNat / 256 := by
  rw [← hiByte_toNat, ← hiByte_toNat, BitVec.toNat_inj]

/-- R230, R362: a branch of two bytes and base cost 2, not taken, taken into the page of PCnext, or out of it. -/
theorem branchForm_eq_next {i : Instr} (hlength : i.length = 2) (hbase : i.baseCycles = 2)
    (taken : Bool) (b : Byte) (s : State) : branchForm i taken b s = .next (branchResult s taken b) := by
  have hnext : s.toPcNext i = s.setPc (s.pc + 2) := by rw [State.toPcNext, hlength]; rfl
  have hcost (n : Nat) : cost i false n = 2 + n := by simp [cost, pagePenalty, hbase]
  rw [branchForm, complete, hnext, hcost, State.setPc_pc, branchTarget, sext16_eq_signExtend]
  cases taken with
  | false => rfl
  | true =>
    simp only [branchPenalty, branchResult, hiByte_eq_iff, if_true]
    split
    · rfl
    · rfl

/-- BPL, BVC, BCC, BNE: taken where the flag is 0. -/
theorem branchForm_flag_clear {i : Instr} (hlength : i.length = 2) (hbase : i.baseCycles = 2) (flag : Bool) (b : Byte)
    (s : State) : branchForm i (flag == false) b s = .next (branchResult s (!flag) b) := by
  rw [beq_false, branchForm_eq_next hlength hbase]

/-- BMI, BVS, BCS, BEQ: taken where the flag is 1. -/
theorem branchForm_flag_set {i : Instr} (hlength : i.length = 2) (hbase : i.baseCycles = 2) (flag : Bool) (b : Byte)
    (s : State) : branchForm i (flag == true) b s = .next (branchResult s flag b) := by
  rw [beq_true, branchForm_eq_next hlength hbase]

/-- Settles O44: each of the four flags has a branch where it is clear and a branch where it is set. -/
theorem branchInstructions : Obligations.BranchInstructions :=
  ⟨fun _ _ => ⟨rfl, rfl, rfl, rfl, rfl, rfl, rfl, rfl⟩, fun s b =>
    ⟨branchForm_flag_clear rfl rfl s.p.n b s, branchForm_flag_set rfl rfl s.p.n b s,
      branchForm_flag_clear rfl rfl s.p.v b s, branchForm_flag_set rfl rfl s.p.v b s,
      branchForm_flag_clear rfl rfl s.p.c b s, branchForm_flag_set rfl rfl s.p.c b s,
      branchForm_flag_clear rfl rfl s.p.z b s, branchForm_flag_set rfl rfl s.p.z b s⟩⟩

end Sys2Proof.Machine

end Branches

/-! ### JMP (R240, R241) -/

section Jumps

namespace Sys2Proof.Machine

/-- JMP in either mode sets PC to its target, and its base cost is all it costs. -/
theorem exec_jmp (o : JumpOperand) (s : State) :
    exec (.jmp o) s =
      .next { s with pc := o.target s, cycles := s.cycles + BitVec.ofNat 64 (Instr.jmp o).baseCycles } := rfl

/-- R108: the high byte of an indirect target comes from the page of the pointer, also where the pointer ends it. -/
theorem indirect_target_word (hi lo : Byte) (s : State) :
    (JumpOperand.indirect (word hi lo)).target s = word (s.readByte (word hi (lo + 1))) (s.readByte (word hi lo)) := by
  rw [JumpOperand.target, hiByte_word, loByte_word]

/-- Settles O45: the target of each mode, and its base cost. -/
theorem jumpInstructions : Obligations.JumpInstructions := by
  refine ⟨fun _ _ => ⟨rfl, rfl⟩, fun s w => exec_jmp (.absolute w) s, fun s lo hi => ?_⟩
  rw [exec_jmp, indirect_target_word]
  rfl

end Sys2Proof.Machine

end Jumps

/-! ### JSR, RTS and RTI (R245, R246, R250)

JSR is two pushes; RTS and RTI read the stack bytes above SP. -/

section Subroutines

namespace Sys2Proof.Machine

open Sys2Proof.Claims

/-- A push moves every stack byte one further from SP, and its byte is the first above SP. -/
theorem stackByte_push (s : State) (v k : Byte) : stackByte (s.push v) k = if k = 1 then v else stackByte s (k - 1) := by
  have haddr : (s.push v).sp + k = s.sp + (k - 1) := by rw [State.push_sp]; ring
  rw [stackByte_eq_readByte, stackByte_eq_readByte, haddr, State.readByte_push]
  simp only [stackAddr_inj, add_eq_left, sub_eq_zero]

/-- A word pushed high byte first is made again of the two stack bytes above SP, low byte first. -/
theorem word_of_pushed_bytes (s : State) (w : Word) :
    let t := (s.push (hiByte w)).push (loByte w)
    word (stackByte t 2) (stackByte t 1) = w := by
  intro t
  have hlo : stackByte t 1 = loByte w := stackByte_push _ _ 1
  have hhi : stackByte t 2 = hiByte w := (stackByte_push _ _ 2).trans (stackByte_push _ _ 1)
  rw [hlo, hhi, word_hiByte_loByte]

/-- R245: the pushed address is PCnext less one, PC0 + 2. -/
theorem exec_jsr (target : Word) (s : State) :
    exec (.jsr target) s =
      .next ((((s.push (hiByte (s.pc + 2))).push (loByte (s.pc + 2))).setPc target).charge 6) := by
  have hret : s.pc + 3 - 1 = s.pc + 2 := by rw [add_sub_assoc]; rfl
  rw [← hret]
  rfl

/-- R246. -/
theorem exec_rts (s : State) :
    exec .rts s =
      .next { s with pc := word (stackByte s 2) (stackByte s 1) + 1, sp := s.sp + 2, cycles := s.cycles + 6 } := by
  have hsp : s.sp + 2 = s.sp + 1 + 1 := by rw [BitVec.add_assoc]; rfl
  rw [stackByte_eq_readByte, stackByte_eq_readByte, hsp]
  rfl

/-- R250. -/
theorem exec_rti (s : State) :
    exec .rti s = .next { s with
      p := Flags.unpack (stackByte s 1), pc := word (stackByte s 3) (stackByte s 2), sp := s.sp + 3,
      cycles := s.cycles + 6 } := by
  have hexec : exec .rti s = .next ((s.toPcNext .rti).returnFromInterrupt.charge 6) := rfl
  rw [hexec, State.returnFromInterrupt_eq, ← State.pullByte_eq_stackByte, stackByte_eq_readByte, stackByte_eq_readByte]
  rfl

/-- Settles O47: RTS pulls the word JSR pushed, the address of JSR's last byte, and adds 1; two pushes and two pulls
leave SP where it was, also where it wraps. -/
theorem jsrThenRtsReturns : Obligations.JsrThenRtsReturns := by
  intro s t u target hjsr hrts
  rw [exec_jsr] at hjsr
  cases hjsr
  rw [exec_rts] at hrts
  cases hrts
  have hpc : s.pc + 2 + 1 = s.pc + 3 := by rw [BitVec.add_assoc]; rfl
  have hsp : s.sp - 1 - 1 + 2 = s.sp := by ring
  exact ⟨(congrArg (· + 1) (word_of_pushed_bytes s (s.pc + 2))).trans hpc, hsp, rfl⟩

/-- Settles O46: each push of JSR written out as one byte of page 1. -/
theorem subroutineInstructions : Obligations.SubroutineInstructions := by
  refine ⟨fun _ _ => rfl, fun _ _ => rfl, fun s target => ?_, exec_rts⟩
  have hsp : s.sp - 1 - 1 = s.sp - 2 := by rw [BitVec.sub_sub]; rfl
  rw [exec_jsr, State.push_eq, State.push_eq, ← hsp]
  rfl

/-- Settles O48: RTI is `exec_rti`, and its opcode takes no operand bytes. -/
theorem rtiInstruction : Obligations.RtiInstruction := ⟨fun _ _ => rfl, exec_rti⟩

end Sys2Proof.Machine

end Subroutines

/-! ### BRK and NOP (R252, R278) -/

section BreakAndNop

namespace Sys2Proof.Machine

open Sys2Proof.Claims

/-- An Implied instruction whose operation does nothing advances PC by 1 and costs its base cost. -/
theorem impliedForm_id_eq_next {i : Instr} (hlength : i.length = 1) (s : State) :
    impliedForm i (fun t => t) s = .next (oneByteDone i.baseCycles s s) := by
  have hcost : cost i false 0 = i.baseCycles := by simp [cost, pagePenalty]
  rw [impliedForm, complete, hcost, State.toPcNext, hlength]
  rfl

/-- Settles O50: both are the Implied form of the operation that does nothing, at their own base costs. -/
theorem brkAndNop : Obligations.BrkAndNop :=
  ⟨fun _ _ => rfl, fun _ _ => rfl, fun s => ⟨impliedForm_id_eq_next rfl s, impliedForm_id_eq_next rfl s⟩⟩

end Sys2Proof.Machine

end BreakAndNop

/-! PROOFS of the family 46_flags_transfers_nop.md. The exact next state of the flag instructions and the register
transfers. -/

/-! ### The flag instructions and the transfers (R260 to R266, R270 to R275)

Each is the Implied form of an operation that neither reads nor writes PC and Cycles, so that the operation can be stated
in the state before the instruction: one lemma about the Implied form is the meaning of each. -/

section FlagsAndTransfers

namespace Sys2Proof.Machine

open Sys2Proof.Claims

/-- R342, R360: `hpc` and `hcycles` say that the operation lets PC and Cycles be. -/
theorem exec_eq_next_of_impliedForm {i : Instr} {s : State} (op : State → State)
    (hform : exec i s = impliedForm i op s) (hlength : i.length = 1)
    (hpc : op (s.setPc (s.pc + 1)) = (op s).setPc (s.pc + 1)) (hcycles : (op s).cycles = s.cycles) :
    exec i s = .next (oneByteDone i.baseCycles s (op s)) := by
  have hcost : cost i false 0 = i.baseCycles := by simp [cost, pagePenalty]
  have hnext : op (s.toPcNext i) = (op s).setPc (s.pc + 1) := by
    rw [State.toPcNext, hlength]
    exact hpc
  rw [hform, impliedForm, complete, hcost, hnext, State.charge, State.setPc_cycles, hcycles]
  rfl

/-- An Implied instruction whose operation is a change `f` of P. -/
theorem exec_eq_next_of_flagUpdate {i : Instr} {s : State} (f : Flags → Flags)
    (hform : exec i s = impliedForm i (fun t => t.setP (f t.p)) s) (hlength : i.length = 1) :
    exec i s = .next (oneByteDone i.baseCycles s { s with p := f s.p }) :=
  exec_eq_next_of_impliedForm (fun t => t.setP (f t.p)) hform hlength rfl rfl

/-- Settles O51: the operation of each of the seven is the change of its one flag. -/
theorem flagInstructions : Obligations.FlagInstructions :=
  ⟨fun _ _ => rfl, fun _ _ => rfl, fun _ _ => rfl, fun _ _ => rfl, fun _ _ => rfl, fun _ _ => rfl, fun _ _ => rfl,
    fun _ => ⟨
      exec_eq_next_of_flagUpdate ({ · with c := false }) rfl rfl,
      exec_eq_next_of_flagUpdate ({ · with c := true }) rfl rfl,
      exec_eq_next_of_flagUpdate ({ · with i := false }) rfl rfl,
      exec_eq_next_of_flagUpdate ({ · with i := true }) rfl rfl,
      exec_eq_next_of_flagUpdate ({ · with d := false }) rfl rfl,
      exec_eq_next_of_flagUpdate ({ · with d := true }) rfl rfl,
      exec_eq_next_of_flagUpdate ({ · with v := false }) rfl rfl⟩⟩

/-- Settles O52: five of the six set a register, Z and N; the operation of TXS leaves P alone. -/
theorem transferInstructions : Obligations.TransferInstructions := by
  refine ⟨fun _ _ => rfl, fun _ _ => rfl, fun _ _ => rfl, fun _ _ => rfl, fun _ _ => rfl, fun _ _ => rfl, fun s => ?_⟩
  simp only [Flags.nz_eq_setNZ]
  exact ⟨
    exec_eq_next_of_impliedForm (fun t => (t.setX t.a).setNZ t.a) rfl rfl rfl rfl,
    exec_eq_next_of_impliedForm (fun t => (t.setA t.x).setNZ t.x) rfl rfl rfl rfl,
    exec_eq_next_of_impliedForm (fun t => (t.setY t.a).setNZ t.a) rfl rfl rfl rfl,
    exec_eq_next_of_impliedForm (fun t => (t.setA t.y).setNZ t.y) rfl rfl rfl rfl,
    exec_eq_next_of_impliedForm (fun t => (t.setX t.sp).setNZ t.sp) rfl rfl rfl rfl,
    exec_eq_next_of_impliedForm (fun t => t.setSp t.x) rfl rfl rfl rfl⟩

end Sys2Proof.Machine

end FlagsAndTransfers

/-! PROOFS of the family 60_exceptions.md. The one fault there is, and RTI to a frame that a program pushed. -/

/-! ### Faults and hand-built frames (R300, R304, R306) -/

section FaultsAndFrames

namespace Sys2Proof.Machine

open Sys2Proof.Claims

/-- Settles O6: every meaning but that of an undefined opcode ends in `complete`, which answers a next state; a shift does
so in each of its two targets. An undefined opcode answers by the policy. -/
theorem onlyIllegalOpcodeFaults : Obligations.OnlyIllegalOpcodeFaults := by
  intro i s
  cases i with
  | undefined op =>
    obtain ⟨-, hnext⟩ | ⟨hpolicy, hfault⟩ := execUndefined_cases op s
    · exact .inl ⟨_, hnext⟩
    · exact .inr ⟨op, rfl, hpolicy, hfault⟩
  | asl o | lsr o | rol o | ror o =>
    cases o with
    | accumulator => exact .inl ⟨_, rfl⟩
    | memory m => exact .inl ⟨_, rfl⟩
  | _ => exact .inl ⟨_, rfl⟩

/-- After three pushes the three stack bytes above SP are the pushed ones, the last one first. -/
theorem stackBytes_of_three_pushes (s : State) (first second third : Byte) :
    let t := ((s.push first).push second).push third
    stackByte t 1 = third ∧ stackByte t 2 = second ∧ stackByte t 3 = first :=
  ⟨stackByte_push _ _ 1,
    (stackByte_push _ _ 2).trans (stackByte_push _ _ 1),
    (stackByte_push _ _ 3).trans ((stackByte_push _ _ 2).trans (stackByte_push _ _ 1))⟩

/-- Settles O49: RTI reads the three pushed bytes, and its three pulls undo what the three pushes did to SP, also where SP
wraps. -/
theorem handBuiltFrameReturns : Obligations.HandBuiltFrameReturns := by
  intro s u pch pcl status hrti
  obtain ⟨hstatus, hpcl, hpch⟩ := stackBytes_of_three_pushes s pch pcl status
  rw [exec_rti, hstatus, hpcl, hpch] at hrti
  cases hrti
  have hsp : s.sp - 1 - 1 - 1 + 3 = s.sp := by ring
  exact ⟨rfl, rfl, hsp⟩

end Sys2Proof.Machine

end FaultsAndFrames

/-! PROOFS of the family 70_reset_and_hazards.md, and of two general facts: every step keeps the memory canonical, and
decoding undoes encoding. How a program is loaded, how a run ends, what every reachable state keeps and what an
instruction costs. -/

/-! ### The canonical memory (20_memory.md section 1) -/

section CanonicalMemory

namespace Sys2Proof.Machine

theorem State.inv_of_mem_eq {s t : State} (h : t.mem = s.mem) (hs : s.Inv) : t.Inv :=
  (congrArg Memory.wf h).trans hs

/-- An instruction writes no byte, one byte or two, and a write keeps the canonical form. -/
theorem exec_keeps_inv {i : Instr} {s t : State} (hs : s.Inv) (h : exec i s = .next t) : t.Inv := by
  obtain ⟨-, hmem⟩ | ⟨w, v, -, hmem⟩ | ⟨v, v', -, hmem⟩ := exec_mem_cases h
  · exact State.inv_of_mem_eq hmem hs
  · exact State.inv_of_mem_eq hmem (State.wf_writeByte hs w v)
  · exact State.inv_of_mem_eq hmem (State.wf_writeByte (State.wf_writeByte hs _ v) _ v')

/-- Settles O3: a step is an instruction, or nothing. -/
theorem stepKeepsMemoryCanonical : Obligations.StepKeepsMemoryCanonical := by
  intro s t hs h
  obtain ⟨-, hstep⟩ | ⟨-, hstep⟩ := step_cases s
  · exact exec_keeps_inv hs (hstep ▸ h)
  · cases hstep.symm.trans h
    exact hs

/-- Settles O2: right after creation no byte is listed. -/
theorem resetMemoryCanonical : Obligations.ResetMemoryCanonical := State.reset_wf

end Sys2Proof.Machine

end CanonicalMemory

/-! ### Decoding what was encoded (30_encoding.md R71 to R74, R115)

An instruction's opcode decodes to the instruction with its operand replaced by that of the bytes read, and replaced by
that of its own operand bytes the operand stays. -/

section DecodingEncoded

namespace Sys2Proof

section

variable {b1 b2 : Byte}

theorem word_eq_of_bytes {w : Word} (h : [loByte w, hiByte w] <+: [b1, b2]) : word b2 b1 = w := by
  obtain ⟨rfl, rfl⟩ : loByte w = b1 ∧ hiByte w = b2 := by simpa using h
  exact word_hiByte_loByte w

theorem byte_eq_of_bytes {b : Byte} (h : [b] <+: [b1, b2]) : b1 = b := by
  obtain rfl : b = b1 := by simpa using h
  rfl

theorem MemMode.withOperand_eq_self {m : MemMode} (h : m.bytes <+: [b1, b2]) : m.withOperand b1 b2 = m := by
  cases m with
  | absolute w | absoluteX w | absoluteY w => exact congrArg _ (word_eq_of_bytes h)
  | _ b => exact congrArg _ (byte_eq_of_bytes h)

theorem ReadOperand.withOperand_eq_self {o : ReadOperand} (h : o.bytes <+: [b1, b2]) : o.withOperand b1 b2 = o := by
  cases o with
  | immediate v => exact congrArg _ (byte_eq_of_bytes h)
  | memory m => exact congrArg _ (m.withOperand_eq_self h)

theorem RmwMode.withOperand_eq_self {m : RmwMode} (h : m.toMem.bytes <+: [b1, b2]) : m.withOperand b1 b2 = m := by
  cases m with
  | absolute w | absoluteX w => exact congrArg _ (word_eq_of_bytes h)
  | _ b => exact congrArg _ (byte_eq_of_bytes h)

theorem ShiftOperand.withOperand_eq_self {o : ShiftOperand} (h : o.bytes <+: [b1, b2]) : o.withOperand b1 b2 = o := by
  cases o with
  | accumulator => rfl
  | memory m => exact congrArg _ (RmwMode.withOperand_eq_self h)

/-- An instruction keeps its operand when the operand is made again of its own bytes, whatever follows them. -/
theorem Instr.withOperand_eq_self {i : Instr} (h : i.operandBytes <+: [b1, b2]) : i.withOperand b1 b2 = i := by
  cases i with
  | lda o | ldx o | ldy o | and o | ora o | eor o | adc o | sbc o | cmp o | cpx o | cpy o =>
    exact congrArg _ (ReadOperand.withOperand_eq_self h)
  | sta m | stx m | sty m | bit m => exact congrArg _ (MemMode.withOperand_eq_self h)
  | asl o | lsr o | rol o | ror o => exact congrArg _ (ShiftOperand.withOperand_eq_self h)
  | inc m | dec m => exact congrArg _ (RmwMode.withOperand_eq_self h)
  | bpl b | bmi b | bvc b | bvs b | bcc b | bcs b | bne b | beq b => exact congrArg _ (byte_eq_of_bytes h)
  | jmp o => cases o <;> exact congrArg (Instr.jmp ∘ _) (word_eq_of_bytes h)
  | jsr target => exact congrArg _ (word_eq_of_bytes h)
  | _ => rfl

end

/-- The cell of the opcode map at an instruction's opcode is the instruction, up to its operand (R79, R115). -/
theorem decode_of_opcode {i : Instr} {op : Byte} (h : i.opcode = some op) (b1 b2 : Byte) :
    decode op b1 b2 = i.withOperand b1 b2 := by
  cases i with
  | lda o | ldx o | ldy o | and o | ora o | eor o | adc o | sbc o | cmp o | cpx o | cpy o =>
    cases o with
    | immediate v => cases h; rfl
    | memory m => cases m <;> cases h <;> rfl
  | sta m | stx m | sty m | bit m => cases m <;> cases h <;> rfl
  | asl o | lsr o | rol o | ror o =>
    cases o with
    | accumulator => cases h; rfl
    | memory m => cases h; cases m <;> simp only [shiftOpcode, rmwOpcode] <;> rfl
  | inc m | dec m => cases h; cases m <;> simp only [rmwOpcode] <;> rfl
  | jmp o => cases o <;> cases h <;> rfl
  | undefined op' =>
    obtain ⟨hmem, rfl⟩ : op' ∈ undefinedOpcodes ∧ op' = op := by simpa [Instr.opcode] using h
    exact (decode_eq_undefined op' b1 b2).2 hmem
  | _ => cases h; rfl

/-- The lemmas of `Laws.EncodeLength`, one per constructor, as one of every instruction. -/
theorem encodeLength_statement (i : Instr) : Laws.EncodeLength.Statement i := by
  cases i with
  | lda o | ldx o | ldy o | and o | ora o | eor o | adc o | sbc o | cmp o | cpx o | cpy o =>
    cases o with
    | immediate v => exact Laws.EncodeLength.of_operandBytes rfl rfl
    | memory m => cases m <;> exact Laws.EncodeLength.of_operandBytes rfl rfl
  | sta m | stx m | sty m | inc m | dec m | bit m => cases m <;> exact Laws.EncodeLength.of_operandBytes rfl rfl
  | asl o | lsr o | rol o | ror o =>
    cases o with
    | accumulator => exact Laws.EncodeLength.of_operandBytes rfl rfl
    | memory m => cases m <;> exact Laws.EncodeLength.of_operandBytes rfl rfl
  | jmp o => cases o <;> exact Laws.EncodeLength.of_operandBytes rfl rfl
  | undefined op => exact Laws.EncodeLength.undefined op
  | _ => exact Laws.EncodeLength.of_operandBytes rfl rfl

theorem length_of_opcode {i : Instr} {op : Byte} (h : i.opcode = some op) : opcodeLength op = i.length := by
  rw [opcodeLength, decode_of_opcode h, (i.withOperand_sameRow 0 0).length]

/-- The opcode says how many operand bytes to read, as many as were encoded, and they make the operand again. -/
theorem decodeBytes_of_encode {i : Instr} {bytes : List Byte} (h : encode i = some bytes) (rest : List Byte) :
    decodeBytes (bytes ++ rest) = .ok (i, rest) := by
  obtain ⟨hlength, -, hle⟩ := (encodeLength_statement i).1 bytes h
  obtain ⟨op, hop, rfl⟩ := Option.map_eq_some_iff.1 h
  have hl : opcodeLength op = i.operandBytes.length + 1 := (length_of_opcode hop).trans hlength.symm
  have own {b1 b2 : Byte} (hb : i.operandBytes <+: [b1, b2]) : decode op b1 b2 = i :=
    (decode_of_opcode hop b1 b2).trans (Instr.withOperand_eq_self hb)
  rw [← hlength, List.length_cons] at hle
  rcases hb : i.operandBytes with - | ⟨b1, - | ⟨b2, - | ⟨b3, bs⟩⟩⟩
  all_goals rw [hb] at hl hle own
  · exact (decodeBytes_one rest hl).trans (by rw [own ⟨_, rfl⟩])
  · exact (decodeBytes_two b1 rest hl).trans (by rw [own ⟨[0], rfl⟩])
  · exact (decodeBytes_three b1 b2 rest hl).trans (by rw [own ⟨[], rfl⟩])
  · simp only [List.length_cons] at hle
    omega

/-- Settles O7: a well-formed instruction has an encoding. -/
theorem decodeOfEncode : Obligations.DecodeOfEncode := by
  intro i rest hw
  obtain ⟨bytes, hbytes⟩ := Option.isSome_iff_exists.1 ((encodeLength_statement i).2.trans hw)
  exact ⟨bytes, hbytes, decodeBytes_of_encode hbytes rest⟩

end Sys2Proof

end DecodingEncoded

/-! ### One step in the load window (R342) -/

section StepInWindow

namespace Sys2Proof.Machine

/-- The three bytes a fetch reads hold the encoding of the instruction they decode to, whatever follows it. -/
theorem decodeBytes_three_bytes (op b1 b2 : Byte) :
    decodeBytes [op, b1, b2] = .ok (decode op b1 b2, [op, b1, b2].drop (decode op b1 b2).length) := by
  obtain ⟨-, hencode, -⟩ := encodeOfDecode op b1 b2
  have h := decodeBytes_of_encode hencode ([op, b1, b2].drop (decode op b1 b2).length)
  rwa [List.take_append_drop] at h

theorem fetch_of_decodeBytes {s : State} {i : Instr} {rest : List Byte}
    (h : decodeBytes [s.readByte s.pc, s.readByte (s.pc + 1), s.readByte (s.pc + 2)] = .ok (i, rest)) :
    s.fetch = i := by
  rw [decodeBytes_three_bytes] at h
  cases h
  rfl

theorem step_of_inWindow {s : State} (hw : s.inWindow = true) : step s = exec s.fetch s := if_pos hw

theorem step_of_not_inWindow {s : State} (hw : s.inWindow = false) : step s = .next s := by
  simp [step, hw]

/-- Settles O12: the instruction decoded is the one fetched, and the decoder gives well-formed instructions only. -/
theorem stepRunsDecodedInstruction : Obligations.StepRunsDecodedInstruction := by
  intro s i rest hw hdecode
  obtain rfl := fetch_of_decodeBytes hdecode
  exact ⟨wellFormed_decode _ _ _, step_of_inWindow hw⟩

end Sys2Proof.Machine

end StepInWindow

/-! ### Loading a program (R341, R347)

The bytes of a program are stored one after the other, so an address has the last byte stored there. -/

section Loading

namespace Sys2Proof.Machine

theorem word_add_one_add_ofNat (entry : Word) (k : Nat) :
    entry + 1 + BitVec.ofNat 16 k = entry + BitVec.ofNat 16 (k + 1) := by
  rw [Nat.add_comm k 1, BitVec.ofNat_add, BitVec.add_assoc]
  rfl

theorem readByte_storeBytes_other (s : State) (entry : Word) (program : List Byte) {addr : Word}
    (h : ∀ k < program.length, addr ≠ entry + BitVec.ofNat 16 k) :
    (s.storeBytes entry program).readByte addr = s.readByte addr := by
  induction program generalizing s entry with
  | nil => rfl
  | cons v rest ih =>
    have hfirst : addr ≠ entry := by simpa using h 0 (Nat.zero_lt_succ _)
    have hrest : ∀ k < rest.length, addr ≠ entry + 1 + BitVec.ofNat 16 k := fun k hk => by
      rw [word_add_one_add_ofNat]
      exact h (k + 1) (Nat.succ_lt_succ hk)
    exact (ih _ _ hrest).trans (State.readByte_writeByte_other s v hfirst)

/-- The byte at an address that no later byte of the program is stored at. -/
theorem readByte_storeBytes_last (s : State) (entry : Word) (program : List Byte) {k : Nat} (hk : k < program.length)
    (hlast : ∀ k' < program.length, k < k' → entry + BitVec.ofNat 16 k' ≠ entry + BitVec.ofNat 16 k) :
    (s.storeBytes entry program).readByte (entry + BitVec.ofNat 16 k) = program[k] := by
  induction program generalizing s entry k with
  | nil => cases hk
  | cons v rest ih =>
    cases k with
    | zero =>
      have hrest : ∀ k' < rest.length, entry + BitVec.ofNat 16 0 ≠ entry + 1 + BitVec.ofNat 16 k' := fun k' hk' => by
        rw [word_add_one_add_ofNat]
        exact (hlast (k' + 1) (Nat.succ_lt_succ hk') k'.succ_pos).symm
      refine (readByte_storeBytes_other _ _ _ hrest).trans ?_
      rw [BitVec.add_zero]
      exact State.readByte_writeByte_same s entry v
    | succ k =>
      rw [← word_add_one_add_ofNat]
      refine ih _ _ (Nat.lt_of_succ_lt_succ hk) fun k' hk' hlt => ?_
      rw [word_add_one_add_ofNat, word_add_one_add_ofNat]
      exact hlast (k' + 1) (Nat.succ_lt_succ hk') (Nat.succ_lt_succ hlt)

/-- Loading writes memory, PC and the load window, nothing else. -/
theorem State.position_eq (s : State) (entry : Word) (program : List Byte) :
    s.position entry program =
      { s with
        pc := entry
        mem := (s.storeBytes entry program).mem
        window := { entry := entry, length := program.length } } := by
  rw [State.position, State.storeBytes_regs]
  rfl

@[simp] theorem State.position_pc (s : State) (entry : Word) (program : List Byte) :
    (s.position entry program).pc = entry := rfl

theorem load_of_length_le {entry : Word} {program : List Byte} {s : State}
    (h : program.length ≤ s.cfg.maxProgramLength) : load entry program s = .next (s.position entry program) :=
  if_neg (Nat.not_lt.2 h)

theorem load_of_length_gt {entry : Word} {program : List Byte} {s : State}
    (h : program.length > s.cfg.maxProgramLength) : load entry program s = .refused (.programTooLong program.length) :=
  if_pos h

/-- Settles O15: the positioned state has the registers of `position_eq` and the memory that storing the bytes left. -/
theorem loadPositionsProgram : Obligations.LoadPositionsProgram := by
  intro entry program s hle
  refine ⟨s.position entry program, load_of_length_le hle, ?_⟩
  rw [State.position_eq]
  exact ⟨rfl, rfl, rfl, rfl, rfl, rfl, rfl, rfl, rfl, fun k hk => readByte_storeBytes_last s entry program hk,
    fun addr => readByte_storeBytes_other s entry program⟩

/-- The distances below 65536 from an address are addresses that differ. -/
theorem word_add_ofNat_inj {entry : Word} {k k' : Nat} (hk : k < 65536) (hk' : k' < 65536) :
    entry + BitVec.ofNat 16 k = entry + BitVec.ofNat 16 k' ↔ k = k' := by
  rw [BitVec.add_right_inj, ← BitVec.toNat_inj, BitVec.toNat_ofNat, BitVec.toNat_ofNat, Nat.mod_eq_of_lt hk,
    Nat.mod_eq_of_lt hk']

/-- A program that does not wrap onto itself is read back byte by byte. -/
theorem readByte_position (s : State) (entry : Word) (program : List Byte) (hle : program.length ≤ 65536) {k : Nat}
    (hk : k < program.length) : (s.position entry program).readByte (entry + BitVec.ofNat 16 k) = program[k] :=
  readByte_storeBytes_last s entry program hk fun k' hk' hlt heq => by
    rw [word_add_ofNat_inj (by omega) (by omega)] at heq
    omega

theorem inWindow_iff (s : State) : s.inWindow = true ↔
    s.window.entry.toNat ≤ s.pc.toNat ∧ s.pc.toNat < s.window.entry.toNat + s.window.length := by
  simp [State.inWindow]

theorem inWindow_of_halted {s : State} (h : s.halted = true) : s.inWindow = false := by
  simpa [State.halted] using h

theorem inWindow_position (s : State) (entry : Word) (program : List Byte) :
    (s.position entry program).inWindow = true ↔ program ≠ [] := by
  rw [inWindow_iff, State.position_eq, ← List.length_pos_iff]
  simp

theorem decodeBytes_of_decodeTableWord {nbits w : Nat} {i : Instr} (h : decodeTableWord nbits w = some i) :
    ∃ rest, decodeBytes (tableBytes nbits w) = .ok (i, rest) := by
  unfold decodeTableWord at h
  split at h
  case h_1 j rest hdecode =>
    cases h
    exact ⟨rest, hdecode⟩
  case h_2 => cases h

/-- A program of three bytes that is loaded at PC is what the next step fetches. -/
theorem fetched_bytes_position (s : State) (op b1 b2 : Byte) :
    let t := s.position s.pc [op, b1, b2]
    [t.readByte t.pc, t.readByte (t.pc + 1), t.readByte (t.pc + 2)] = [op, b1, b2] := by
  intro t
  have hread (k : Nat) (hk : k < 3) : t.readByte (s.pc + BitVec.ofNat 16 k) = [op, b1, b2][k] :=
    readByte_position s s.pc [op, b1, b2] (by simp) hk
  have hfirst : t.readByte s.pc = op := (congrArg t.readByte (BitVec.add_zero s.pc)).symm.trans (hread 0 (by decide))
  have hsecond : t.readByte (s.pc + 1) = b1 := hread 1 (by decide)
  have hthird : t.readByte (s.pc + 2) = b2 := hread 2 (by decide)
  have hpc : t.pc = s.pc := State.position_pc ..
  rw [hpc, hfirst, hsecond, hthird]

/-- Settles O14: the loaded program is the window, PC is at its first byte, and the word's bytes are fetched. -/
theorem loadedInstructionRunsNext : Obligations.LoadedInstructionRunsNext := by
  intro s nbits w i htable
  obtain ⟨rest, hdecode⟩ := decodeBytes_of_decodeTableWord htable
  have hw : (s.withFetchWord nbits w).inWindow = true := (inWindow_position ..).2 (List.cons_ne_nil _ _)
  have hfetch : (s.withFetchWord nbits w).fetch = i :=
    fetch_of_decodeBytes ((congrArg _ (fetched_bytes_position s ..)).trans hdecode)
  rw [step_of_inWindow hw, hfetch]

end Sys2Proof.Machine

end Loading

/-! ### The end of a run (R315, R343 to R347, R349)

Rounds of the loop compose, and each run ends in one of four ways after the rounds it made. -/

section RunEnds

namespace Sys2Proof.Machine

open Sys2Proof.Claims

theorem runWindow_of_not_inWindow (fuel : Nat) {s : State} (hw : s.inWindow = false) :
    runWindow fuel s = .halted s := by
  cases fuel with
  | zero => simp [runWindow, hw]
  | succ fuel => simp [runWindow, hw]

theorem runWindow_zero_of_inWindow {s : State} (hw : s.inWindow = true) : runWindow 0 s = .cutShort s := if_pos hw

theorem runWindow_of_step_next (fuel : Nat) {s t : State} (hw : s.inWindow = true) (hs : step s = .next t) :
    runWindow (fuel + 1) s = runWindow fuel t := by
  simp only [runWindow, hw, hs, if_true]

theorem runWindow_of_step_refused (fuel : Nat) {s : State} {r : Refusal} (hw : s.inWindow = true)
    (hs : step s = .refused r) : runWindow (fuel + 1) s = .refused r := by
  simp only [runWindow, hw, hs, if_true]

/-- Settles O13: outside the window neither a step nor the loop does anything. -/
theorem haltedStepKeepsState : Obligations.HaltedStepKeepsState :=
  ⟨inWindow_iff, fun _ h => step_of_not_inWindow (inWindow_of_halted h),
    fun fuel _ h => runWindow_of_not_inWindow fuel (inWindow_of_halted h)⟩

theorem runWindow_add_of_rounds {n : Nat} {s t : State} (h : rounds n s t) (k : Nat) :
    runWindow (n + k) s = runWindow k t := by
  induction n generalizing s with
  | zero =>
    cases h
    rw [Nat.zero_add]
  | succ n ih =>
    obtain ⟨hw, u, hstep, hrest⟩ := h
    rw [Nat.succ_add, runWindow_of_step_next _ hw hstep, ih hrest]

/-- The rounds from `s` that an end of a run of at most `fuel` rounds says were made. -/
def endsIn (fuel : Nat) (s : State) : RunEnd → Prop
  | .halted t => ∃ n ≤ fuel, rounds n s t ∧ t.inWindow = false
  | .faulted t r => ∃ n < fuel, rounds n s t ∧ t.inWindow = true ∧ step t = .fault r
  | .cutShort t => rounds fuel s t ∧ t.inWindow = true
  | .refused r => ∃ n < fuel, ∃ t, rounds n s t ∧ t.inWindow = true ∧ step t = .refused r

/-- One more round before a run is one more round of the whole. -/
theorem endsIn_succ_of_step_next {fuel : Nat} {s u : State} {e : RunEnd} (hw : s.inWindow = true)
    (hs : step s = .next u) (h : endsIn fuel u e) : endsIn (fuel + 1) s e := by
  have hround {n : Nat} {t : State} (hn : rounds n u t) : rounds (n + 1) s t := ⟨hw, u, hs, hn⟩
  cases e with
  | halted t =>
    obtain ⟨n, hn, ht, hend⟩ := h
    exact ⟨n + 1, Nat.succ_le_succ hn, hround ht, hend⟩
  | faulted t r =>
    obtain ⟨n, hn, ht, hend⟩ := h
    exact ⟨n + 1, Nat.succ_lt_succ hn, hround ht, hend⟩
  | cutShort t =>
    obtain ⟨ht, hend⟩ := h
    exact ⟨hround ht, hend⟩
  | refused r =>
    obtain ⟨n, hn, t, ht, hend⟩ := h
    exact ⟨n + 1, Nat.succ_lt_succ hn, t, hround ht, hend⟩

theorem endsIn_runWindow (fuel : Nat) (s : State) : endsIn fuel s (runWindow fuel s) := by
  induction fuel generalizing s with
  | zero =>
    cases hw : s.inWindow with
    | false => rw [runWindow_of_not_inWindow 0 hw]; exact ⟨0, Nat.le_refl 0, rfl, hw⟩
    | true => rw [runWindow_zero_of_inWindow hw]; exact ⟨rfl, hw⟩
  | succ fuel ih =>
    obtain ⟨hw, hrun⟩ | ⟨hw, ⟨u, hs, hrun⟩ | ⟨r, hs, hrun⟩ | ⟨r, hs, hrun⟩⟩ := runWindow_cases fuel s
    · rw [hrun]; exact ⟨0, Nat.zero_le _, rfl, hw⟩
    · rw [hrun]; exact endsIn_succ_of_step_next hw hs (ih u)
    · rw [hrun]; exact ⟨0, Nat.succ_pos _, rfl, hw, hs⟩
    · rw [hrun]; exact ⟨0, Nat.succ_pos _, s, rfl, hw, hs⟩

/-- The rounds made decide the end: they compose to the run, and after them the loop stops. -/
theorem runWindow_eq_iff (fuel : Nat) (s : State) (e : RunEnd) : runWindow fuel s = e ↔ endsIn fuel s e := by
  refine ⟨fun h => h ▸ endsIn_runWindow fuel s, fun h => ?_⟩
  cases e with
  | halted t =>
    obtain ⟨n, hn, ht, hw⟩ := h
    obtain ⟨k, rfl⟩ := Nat.exists_eq_add_of_le hn
    rw [runWindow_add_of_rounds ht, runWindow_of_not_inWindow k hw]
  | faulted t r =>
    obtain ⟨n, hn, ht, hw, hs⟩ := h
    obtain ⟨k, rfl⟩ := Nat.exists_eq_add_of_lt hn
    rw [Nat.add_assoc, runWindow_add_of_rounds ht, runWindow_of_step_fault k hw hs]
  | cutShort t =>
    obtain ⟨ht, hw⟩ := h
    exact (runWindow_add_of_rounds ht 0).trans (runWindow_zero_of_inWindow hw)
  | refused r =>
    obtain ⟨n, hn, t, ht, hw, hs⟩ := h
    obtain ⟨k, rfl⟩ := Nat.exists_eq_add_of_lt hn
    rw [Nat.add_assoc, runWindow_add_of_rounds ht, runWindow_of_step_refused k hw hs]

theorem execute_of_length_le (fuel : Nat) {entry : Word} {program : List Byte} {s : State}
    (h : program.length ≤ s.cfg.maxProgramLength) :
    execute fuel entry program s = runWindow fuel (s.position entry program) := by
  rw [execute, load_of_length_le h]

/-- Settles O17: the three ends are cases of `runWindow_eq_iff`, and the rounds to the halt or to the fault are within
every larger bound too. -/
theorem runHasOneEnd : Obligations.RunHasOneEnd := by
  refine ⟨fun fuel s t => runWindow_of_step_next fuel, fun fuel s t => runWindow_eq_iff fuel s (.halted t),
    fun fuel s t r => runWindow_eq_iff fuel s (.faulted t r), fun fuel s t => runWindow_eq_iff fuel s (.cutShort t),
    fun fuel k s t h => ?_, fun fuel k s t r h => ?_, fun _ _ => ⟨rfl, rfl, rfl⟩,
    fun fuel entry program s => execute_of_length_le fuel⟩
  · obtain ⟨n, hn, ht⟩ := (runWindow_eq_iff fuel s (.halted t)).1 h
    exact (runWindow_eq_iff (fuel + k) s (.halted t)).2 ⟨n, Nat.le_add_right_of_le hn, ht⟩
  · obtain ⟨n, hn, ht⟩ := (runWindow_eq_iff fuel s (.faulted t r)).1 h
    exact (runWindow_eq_iff (fuel + k) s (.faulted t r)).2 ⟨n, Nat.lt_add_right k hn, ht⟩

/-- Settles O16: an empty program leaves PC outside its window of length 0. -/
theorem degenerateLoads : Obligations.DegenerateLoads := by
  refine ⟨rfl, fun entry s fuel => ?_, fun entry program s fuel hlong => ?_⟩
  · rw [execute_of_length_le fuel (Nat.zero_le _)]
    have hw : (s.position entry []).inWindow = false :=
      Bool.eq_false_iff.2 fun hw => (inWindow_position s entry []).1 hw rfl
    exact runWindow_of_not_inWindow fuel hw
  · rw [execute, load_of_length_gt hlong]

end Sys2Proof.Machine

end RunEnds

/-! ### What every reachable state keeps (R11, R45, R281) -/

section ReachableStates

namespace Sys2Proof.Machine

open Sys2Proof.Claims

/-- Under the default policy the one fault there is cannot happen. -/
theorem step_next_of_nop1 {s : State} (hp : s.cfg.illegalOpcodePolicy = .nop1) : ∃ t, step s = .next t := by
  obtain ⟨-, hs⟩ | ⟨-, hs⟩ := step_cases s
  · obtain ⟨t, ht⟩ | ⟨op, -, hfault, -⟩ := onlyIllegalOpcodeFaults s.fetch s
    · exact ⟨t, hs.trans ht⟩
    · cases hp.symm.trans hfault
  · exact ⟨s, hs⟩

theorem step_next_of_defaultsInvariant {s : State} (h : defaultsInvariant s) : ∃ t, step s = .next t := by
  obtain ⟨-, hcfg, -⟩ := h
  exact step_next_of_nop1 (congrArg Config.illegalOpcodePolicy hcfg)

theorem defaultsInvariant_reset : defaultsInvariant State.reset := ⟨State.reset_wf, rfl, Nat.zero_le _⟩

theorem defaultsInvariant_step {s t : State} (h : defaultsInvariant s) (hstep : step s = .next t) :
    defaultsInvariant t := by
  obtain ⟨hinv, hcfg, hlength⟩ := h
  obtain ⟨-, hkeeps, -⟩ := stepKeepsWindowAndParameters
  obtain ⟨hwindow, hcfg'⟩ := hkeeps s t hstep
  exact ⟨stepKeepsMemoryCanonical s t hinv hstep, hcfg'.trans hcfg, hwindow ▸ hlength⟩

theorem defaultsInvariant_seed {s : State} (h : defaultsInvariant s) (addr : Word) (v : Byte) :
    defaultsInvariant (s.seed addr v) := by
  obtain ⟨hinv, hcfg, hlength⟩ := h
  exact ⟨State.wf_writeByte hinv addr v, hcfg, hlength⟩

/-- The window of a load is as long as the program, which the default MAX_PROGRAM_LENGTH bounds. -/
theorem defaultsInvariant_load {s t : State} {entry : Word} {program : List Byte} (h : defaultsInvariant s)
    (hload : load entry program s = .next t) : defaultsInvariant t := by
  obtain ⟨hinv, hcfg, -⟩ := h
  obtain ⟨hle, heq⟩ | ⟨-, heq⟩ := load_cases entry program s
  · cases heq.symm.trans hload
    rw [State.position_eq]
    exact ⟨State.wf_storeBytes hinv entry program, hcfg, hle.trans (congrArg Config.maxProgramLength hcfg).le⟩
  · cases heq.symm.trans hload

theorem Reachable.defaultsInvariant {s : State} (h : Reachable s) : defaultsInvariant s := by
  induction h with
  | reset => exact defaultsInvariant_reset
  | step _ hstep ih => exact defaultsInvariant_step ih hstep
  | seed addr v _ _ ih => exact defaultsInvariant_seed ih addr v
  | load entry program _ _ hload ih => exact defaultsInvariant_load ih hload

/-- Settles O4: the invariant holds at creation, each transition keeps it, and it rules the one fault out. -/
theorem reachableStatesKeepInvariant : Obligations.ReachableStatesKeepInvariant := by
  refine ⟨defaultsInvariant_reset, fun s h => ?_, fun s addr v h => defaultsInvariant_seed h addr v,
    fun s t entry program => defaultsInvariant_load,
    fun s h => ⟨h.defaultsInvariant, step_next_of_defaultsInvariant h.defaultsInvariant⟩⟩
  obtain ⟨t, hstep⟩ := step_next_of_defaultsInvariant h
  exact ⟨t, hstep, defaultsInvariant_step h hstep⟩

end Sys2Proof.Machine

end ReachableStates

/-! ### What an instruction costs (R360 to R362) -/

section Costs

namespace Sys2Proof

theorem ReadOperand.readCycles_range (o : ReadOperand) : 2 ≤ o.readCycles ∧ o.readCycles ≤ 6 := by
  cases o with
  | immediate v => simp [readCycles]
  | memory m => cases m <;> simp [readCycles]

theorem MemMode.storeCycles_range (m : MemMode) : 2 ≤ m.storeCycles ∧ m.storeCycles ≤ 6 := by
  cases m <;> simp [storeCycles]

theorem RmwMode.rmwCycles_range (m : RmwMode) : 2 ≤ m.rmwCycles ∧ m.rmwCycles ≤ 7 := by
  cases m <;> simp [rmwCycles]

theorem Instr.baseCycles_range (i : Instr) : 2 ≤ i.baseCycles ∧ i.baseCycles ≤ 7 := by
  cases i with
  | lda o | ldx o | ldy o | and o | ora o | eor o | adc o | sbc o | cmp o | cpx o | cpy o =>
    exact o.readCycles_range.imp_right Nat.le_succ_of_le
  | bit m => exact (ReadOperand.memory m).readCycles_range.imp_right Nat.le_succ_of_le
  | sta m | stx m | sty m => exact m.storeCycles_range.imp_right Nat.le_succ_of_le
  | asl o | lsr o | rol o | ror o =>
    cases o with
    | accumulator => simp [baseCycles, ShiftOperand.shiftCycles]
    | memory m => exact m.rmwCycles_range
  | inc m | dec m => exact m.rmwCycles_range
  | jmp o => cases o <;> simp [baseCycles]
  | _ => simp [baseCycles]

/-- An instruction that pays for a page crossing is a read, so with the penalty it costs 7 at most. -/
theorem Instr.baseCycles_le_of_pagePenalised {i : Instr} (h : i.pagePenalised = true) : i.baseCycles ≤ 6 := by
  cases i with
  | lda o | ldx o | ldy o | and o | ora o | eor o | adc o | sbc o | cmp o => exact o.readCycles_range.2
  | _ => cases h

namespace Machine

theorem pagePenalty_cases (i : Instr) (pageCrossed : Bool) :
    pagePenalty i pageCrossed = 0 ∨ (pagePenalty i pageCrossed = 1 ∧ i.pagePenalised = true) := by
  unfold pagePenalty
  split
  case isTrue h => exact .inr ⟨rfl, (Bool.and_eq_true_iff.1 h).1⟩
  case isFalse => exact .inl rfl

theorem branchPenalty_le (taken : Bool) (target pcNext : Word) : branchPenalty taken target pcNext ≤ 2 := by
  unfold branchPenalty
  split
  · split <;> decide
  · decide

/-- A branch penalty is at most 2 and is paid by the branches alone, whose base cost is 2. -/
def IsBranchPart (i : Instr) (n : Nat) : Prop := n = 0 ∨ (n ≤ 2 ∧ i.baseCycles = 2 ∧ i.pagePenalised = false)

theorem cost_range {i : Instr} {n : Nat} (hn : IsBranchPart i n) (pageCrossed : Bool) :
    i.baseCycles ≤ cost i pageCrossed n ∧ cost i pageCrossed n ≤ i.baseCycles + 2 ∧ 2 ≤ cost i pageCrossed n ∧
    cost i pageCrossed n ≤ 7 := by
  have hbase := i.baseCycles_range
  unfold cost
  obtain hpage | ⟨hpage, hpays⟩ := pagePenalty_cases i pageCrossed
  · obtain rfl | ⟨hle, hbranch, -⟩ := hn
    · omega
    · omega
  · have hread := Instr.baseCycles_le_of_pagePenalised hpays
    obtain rfl | ⟨-, -, hfree⟩ := hn
    · omega
    · cases hpays.symm.trans hfree

/-- An instruction that is no taken branch leaves a state with its cost charged and Cycles untouched before that. -/
theorem exists_cost_of_charge {i : Instr} {s u : State} (pageCrossed : Bool) (hu : u.cycles = s.cycles) :
    ∃ pageCrossed' n, IsBranchPart i n ∧
      (u.charge (cost i pageCrossed 0)).cycles = s.cycles + BitVec.ofNat 64 (cost i pageCrossed' n) :=
  ⟨pageCrossed, 0, .inl rfl, by rw [State.charge_cycles, hu]⟩

/-- Cycles goes up by the cost of the instruction, and by nothing else. -/
theorem exec_cycles {i : Instr} {s t : State} (h : exec i s = .next t) :
    ∃ pageCrossed n, IsBranchPart i n ∧ t.cycles = s.cycles + BitVec.ofNat 64 (cost i pageCrossed n) := by
  cases i with
  | asl o | lsr o | rol o | ror o =>
    cases o with
    | accumulator => cases h; exact exists_cost_of_charge _ rfl
    | memory m => cases h; exact exists_cost_of_charge _ rfl
  | adc o | sbc o => cases h; exact exists_cost_of_charge _ (by simp [State.arithmetic_eq])
  | bpl b | bmi b | bvc b | bvs b | bcc b | bcs b | bne b | beq b =>
    obtain ⟨-, rfl⟩ | ⟨-, rfl⟩ := branchForm_next h
    · exact ⟨_, _, .inr ⟨branchPenalty_le .., rfl, rfl⟩, State.charge_cycles ..⟩
    · exact exists_cost_of_charge _ rfl
  | rti => cases h; exact exists_cost_of_charge _ (by simp [State.returnFromInterrupt_eq])
  | undefined op => obtain ⟨-, rfl⟩ := exec_undefined_next.1 h; exact exists_cost_of_charge _ rfl
  | _ => cases h; exact exists_cost_of_charge _ (by simp)

/-- Settles O57: a cost is between the bounds, and the 64-bit counter wraps modulo 2^64. -/
theorem cyclesCharged : Obligations.CyclesCharged := by
  intro i s t h
  obtain ⟨pageCrossed, n, hn, hcycles⟩ := exec_cycles h
  obtain ⟨hbase, hbase', hlow, hhigh⟩ := cost_range hn pageCrossed
  refine ⟨cost i pageCrossed n, hbase, hbase', hlow, hhigh, ?_⟩
  rw [hcycles, BitVec.toNat_add, BitVec.toNat_ofNat, Nat.add_mod_mod]

end Machine

end Sys2Proof

end Costs
